-- ==== Sys2Proof/Word.lean ====
section
/-! DEFINITION. The two word types of the block: a byte of a stream or of the accumulator, and a 16-bit register value or
bus word (00_scope R6 `WORD_BITS`, R8). -/

namespace Sys2Proof

/-- A byte: one byte of a stream, of a frame or of the accumulator; also a register address (00_scope R6 `ADDR_BITS`). -/
abbrev Byte := BitVec 8

/-- A 16-bit word: a register value or one bus word (00_scope R6, R8). -/
abbrev Word := BitVec 16

end Sys2Proof
end

