-- ==== Sys2Proof/Config.lean ====
section
/-! DEFINITION. What is fixed for the machine and is not its state: the parameters of 00_scope R6, with their values where
the spec gives one and as constants WITHOUT a body where it says OPEN, and the free values of the environment (the draws of
20_memory R54, R55, 60_exceptions R131 and 10_state R35). The vocabulary of the environment stands here too. -/

namespace Sys2Proof

/-- The level of the sensor reset line (10_state R30). -/
inductive Level where
  | low
  | high
  deriving DecidableEq, Repr, Inhabited

/-- One entry of the bus history: its time, the word sent and the word received (10_state R28). -/
structure BusEvent where
  time : Nat
  sent : Word
  received : Word
  deriving DecidableEq, Repr, Inhabited

/-- Who moves next. `fw` is one step of the firmware loop. The others are the moves of the environment agents between two
steps of the loop (20_memory R52, R54, R55; 60_exceptions R133; the syntax of 30_encoding R80). -/
inductive Turn where
  /-- The firmware loop takes its next step. -/
  | fw
  /-- `HostWrite(bs)` (R52). -/
  | hostWrite (bs : List Byte)
  /-- `HostRead(n)` (R52). -/
  | hostRead (n : Nat)
  /-- `DrEdge`: the sensor's data-ready edge (R54, R133). -/
  | drEdge
  /-- `Tick(d)`: the clock advances by `d` (R55). -/
  | tick (d : Nat)
  /-- `SENSOR.ANSWER r`: the sensor settles an answer it will give (R54, R80). -/
  | sensorAnswer (r : Word)
  deriving DecidableEq, Repr, Inhabited

/-- The five scale constants of a device variant, exact rationals (10_state R22, 41_codec R90, D11). -/
structure Scales where
  gyro : Rat
  accel : Rat
  dangle : Rat
  dvel : Rat
  temp : Rat
  deriving DecidableEq, Repr, Inhabited

/-- A supported device model: one row of the table `VARIANTS` (10_state R22, 00_scope R6). -/
structure AdisVersion where
  name : String
  pid : Nat
  ver : Nat
  scales : Scales
  deriving DecidableEq, Repr, Inhabited

namespace Config

/-- `ACC_CAP`: the accumulator's capacity in bytes, the sentinel included (00_scope R6, D4). -/
def accCap : Nat := 256
/-- `RX_CHUNK`: bytes read from the inbound stream per iteration, at most (00_scope R6, D21). -/
def rxChunk : Nat := 64
/-- `TX_CAP`: the outbound ceiling in bytes (00_scope R6, D22). -/
def txCap : Nat := 64
/-- `FRAC_DIV`: the divisor of the fraction word at 32-bit precision (00_scope R6, 41_codec R88). -/
def fracDiv : Nat := 32768
/-- `CHECKSUM_MOD` (00_scope R6). -/
def checksumMod : Nat := 65536
/-- `SENTINEL`: the frame delimiter (00_scope R6, D3). -/
def sentinel : Byte := 0x00#8
/-- `MSC_CTRL_ADDR`: the sensor's control register (00_scope R6, D8). -/
def mscCtrlAddr : Byte := 0x60#8
/-- `MSC_DEFAULT`: the default MscCtrl register word (00_scope R6, D7). -/
def mscDefault : Word := 0x00C1#16
/-- `BURST_CMD`: the bus word that triggers a burst capture (00_scope R6, 30_encoding R59, D18). -/
def burstCmd : Word := 0x6800#16
/-- `FILL`: the bus word sent when only the answer matters (00_scope R6, 30_encoding R60, D16). -/
def fill : Word := 0x0000#16

/-- `T_MIN`: minimum interval between bus word transactions. OPEN (00_scope R6, D19): no body, log 15. -/
opaque tMin : Nat
/-- `T_SETTLE`: settle delay after a register write. OPEN (00_scope R6, D19): no body, log 15. -/
opaque tSettle : Nat
/-- `T_RST`: width of the reset pulse. OPEN (00_scope R6, D19): no body, log 15. -/
opaque tRst : Nat

/-- The clock's value at boot, a draw (10_state R35): a free value, log 8. -/
opaque bootTime : Nat
/-- Who moves when `turns` names nobody: a free value of the draw counter (20_memory R52, R54, R55), log 1. -/
opaque turn : Nat → Turn
/-- `SensorOracle(bus_log, rst_line, w, choice)` (20_memory R54): any word. A free value, log 2. -/
opaque sensorOracle : List BusEvent → Level → Word → Nat → Word
/-- Whether a `Now()` query answers `Ok` (60_exceptions R131): a draw. A free value, log 3. -/
opaque clockOk : Nat → Bool
/-- Whether a transport read succeeds (20_memory R50, D21): a free value, log 4. -/
opaque readOk : Nat → Bool
/-- Whether a transport write succeeds (20_memory R51, D22): a free value, log 4. -/
opaque writeOk : Nat → Bool

/-- The scales of the one required variant. OPEN (D11): no body, log 16. -/
opaque requiredScales : Scales
/-- Candidate rows of `VARIANTS` beside the required one. OPEN (D10): no body, log 16. -/
opaque otherVariants : List AdisVersion

/-- The row `VARIANTS` must contain (00_scope R6, D10). -/
def requiredVariant : AdisVersion :=
  { name := "ADIS16505_1BMLZ", pid := 16505, ver := 1, scales := requiredScales }

/-- Two rows may not share a (product id, version) pair or a name (D10). -/
def variantsDiffer (a b : AdisVersion) : Bool :=
  !(a.pid == b.pid && a.ver == b.ver) && a.name != b.name

/-- The lookups the spec says fail: the pair (9999, 9), the names `BOGUS` and `adis16505_1bmlz`, the empty name and a name with
a trailing space (41_codec R97, R98, 95_test_vectors EX-5, VR-1). No row of `VARIANTS` answers them. -/
def variantAllowed (r : AdisVersion) : Bool :=
  !(r.pid == 9999 && r.ver == 9) && r.name != "BOGUS" && r.name != "adis16505_1bmlz" && r.name != ""
    && r.name.toList.getLast? != some ' '

/-- Adds an OPEN row that repeats no earlier row's pair or name and answers no lookup that fails; any other row is left out
(D10, log 16). -/
def addVariant (rows : List AdisVersion) (r : AdisVersion) : List AdisVersion :=
  if variantAllowed r && rows.all (variantsDiffer r) then rows ++ [r] else rows

/-- The table `VARIANTS`: the required row first, then the OPEN rows that repeat none before them (00_scope R6, D10, log 16). -/
def variants : List AdisVersion := otherVariants.foldl addVariant [requiredVariant]

end Config
end Sys2Proof
end

