-- ==== Sys2Proof/Syntax.lean ====
section
/-! DEFINITION. The value types of 10_state R17 to R21, the error kinds of 60_exceptions R128, the wire messages of
10_state R21 and the instructions: one constructor of `Instr` for each row of spec/opcode_table.json. -/

namespace Sys2Proof

/-- Burst width (10_state R17). -/
inductive Burst32 where
  | disabled
  | enabled
  deriving DecidableEq, Repr, Inhabited

/-- Burst content selector (10_state R17, 00_scope R15). -/
inductive BurstSel where
  | sel0
  | sel1
  deriving DecidableEq, Repr, Inhabited

/-- Linear-acceleration compensation and point-of-percussion alignment (10_state R17). -/
inductive Toggle where
  | disabled
  | enabled
  deriving DecidableEq, Repr, Inhabited

/-- Bandwidth (10_state R17). -/
inductive Bandwidth where
  | wide
  | narrow
  deriving DecidableEq, Repr, Inhabited

/-- Sync mode, the one 2-bit field (10_state R17). -/
inductive SyncMode where
  | mode0
  | mode1
  | mode2
  | mode3
  deriving DecidableEq, Repr, Inhabited

/-- Sync and data-ready polarity (10_state R17). -/
inductive Polarity where
  | neg
  | pos
  deriving DecidableEq, Repr, Inhabited

/-- The eight fields of the sensor's control register; reserved bits are no part of it (10_state R18). -/
structure MscCtrl where
  burst32 : Burst32
  burstSel : BurstSel
  linGComp : Toggle
  pop : Toggle
  bandwidth : Bandwidth
  syncMode : SyncMode
  syncPol : Polarity
  drPol : Polarity
  deriving DecidableEq, Repr, Inhabited

/-- The ten status flags of a burst frame (10_state R19, 30_encoding R77). -/
structure DiagStat where
  dataPathOverrun : Bool
  flashUpdateFail : Bool
  spiCommError : Bool
  standby : Bool
  sensorFail : Bool
  memoryFail : Bool
  clockError : Bool
  gyro1Fail : Bool
  gyro2Fail : Bool
  accelFail : Bool
  deriving DecidableEq, Repr, Inhabited

/-- Burst precision, 16 or 32 bits (10_state R31, 30_encoding R74). -/
inductive Precision where
  | p16
  | p32
  deriving DecidableEq, Repr, Inhabited

/-- One configuration-field change: BurstEn and one variant per MscCtrl field (10_state R21). -/
inductive ConfigField where
  | burstEn (v : Bool)
  | burst32 (v : Burst32)
  | burstSel (v : BurstSel)
  | linGComp (v : Toggle)
  | pop (v : Toggle)
  | bandwidth (v : Bandwidth)
  | syncMode (v : SyncMode)
  | syncPol (v : Polarity)
  | drPol (v : Polarity)
  deriving DecidableEq, Repr, Inhabited

/-- A wire message (10_state R21). The words of B16 and B32 are lists; `Message.wf` fixes their lengths. -/
inductive Message where
  | cfg (f : ConfigField)
  | rqr (v : Word)
  | b16 (sel : BurstSel) (ws : List Word)
  | b32 (sel : BurstSel) (ws : List Word)
  | rst
  | err (tag : Byte)
  deriving DecidableEq, Repr, Inhabited

/-- The error kinds, in the order of their codes 0 to 6 (60_exceptions R128, 00_scope R16). -/
inductive ErrorKind where
  | transportError
  | noDeviceFound
  | serializationError
  | noResponse
  | deviceReportedError (tag : Byte)
  | clockError
  | unknownDeviceVariant
  deriving DecidableEq, Repr, Inhabited

/-- `Ok(v)` or `Err(kind)`: an error is a value, not a trap (00_scope R12, 60_exceptions R130). -/
inductive Result (α : Type) where
  | ok (v : α)
  | err (kind : ErrorKind)
  deriving DecidableEq, Repr

/-- The items that play the part of instructions: the four bus words and the fourteen message forms of
spec/opcode_table.json, in the table's order (30_encoding R57 to R68). -/
inductive Instr where
  /-- BURST_CMD: the capture command (R59, R122). -/
  | burstCmd
  /-- FILL: the word sent to collect an answer (R60, R123). -/
  | fill
  /-- READ_REQ: the register read request (R57, R82). -/
  | readReq (addr : Byte)
  /-- WRITE_BYTE: one byte of a register write (R58, R83). -/
  | writeByte (target : BitVec 7) (data : Byte)
  /-- CFG.BurstEn (R115). -/
  | cfgBurstEn (v : Bool)
  /-- CFG.Burst32 (R116). -/
  | cfgBurst32 (v : Burst32)
  /-- CFG.BurstSel (R116). -/
  | cfgBurstSel (v : BurstSel)
  /-- CFG.LinGComp (R116). -/
  | cfgLinGComp (v : Toggle)
  /-- CFG.Pop (R116). -/
  | cfgPop (v : Toggle)
  /-- CFG.Bandwidth (R116). -/
  | cfgBandwidth (v : Bandwidth)
  /-- CFG.SyncMode (R116). -/
  | cfgSyncMode (v : SyncMode)
  /-- CFG.SyncPol (R116). -/
  | cfgSyncPol (v : Polarity)
  /-- CFG.DrPol (R116). -/
  | cfgDrPol (v : Polarity)
  /-- RQR: raw register forwarding (R117). -/
  | rqr (v : Word)
  /-- B16: a 16-bit burst (R119 inbound, R124 emitted). -/
  | b16 (sel : BurstSel) (ws : List Word)
  /-- B32: a 32-bit burst (R119 inbound, R124 emitted). -/
  | b32 (sel : BurstSel) (ws : List Word)
  /-- RST: restart (R118). -/
  | rst
  /-- ERR: an error tag (R119). -/
  | err (tag : Byte)
  deriving DecidableEq, Repr, Inhabited

end Sys2Proof
end

