-- ==== Sys2Proof/WellFormed.lean ====
section
/-! DEFINITION. Well-formed messages and instructions: the operand values an encoding admits (30_encoding R57 to R69, R81). -/

namespace Sys2Proof

/-- A B16 carries ten words and a B32 sixteen (30_encoding R65, R66, R69). Every other message is well-formed. -/
def Message.wf : Message → Bool
  | .cfg _ => true
  | .rqr _ => true
  | .b16 _ ws => ws.length == 10
  | .b32 _ ws => ws.length == 16
  | .rst => true
  | .err _ => true

/-- A read request stands for itself when no more specific row claims its word: not 0x6800 (BURST_CMD), not 0x0000 (FILL),
and with bit 15 clear, since a request with `addr >= 0x80` reads as a write byte (30_encoding R57, R61, R81; log 13). -/
def readReqCanonical (addr : Byte) : Bool :=
  addr != 0x68#8 && addr != 0x00#8 && !addr.getLsbD 7

/-- The instructions whose words decode to themselves. -/
def Instr.wf : Instr → Bool
  | .burstCmd => true
  | .fill => true
  | .readReq addr => readReqCanonical addr
  | .writeByte _ _ => true
  | .cfgBurstEn _ => true
  | .cfgBurst32 _ => true
  | .cfgBurstSel _ => true
  | .cfgLinGComp _ => true
  | .cfgPop _ => true
  | .cfgBandwidth _ => true
  | .cfgSyncMode _ => true
  | .cfgSyncPol _ => true
  | .cfgDrPol _ => true
  | .rqr _ => true
  | .b16 _ ws => ws.length == 10
  | .b32 _ ws => ws.length == 16
  | .rst => true
  | .err _ => true

end Sys2Proof
end

