-- ==== Sys2Proof/Decode.lean ====
section
/-! DEFINITION. The encodings of 30_encoding: bus words, messages, the MscCtrl register word and the DIAG_STAT word. Decoding
is total and rejects by name; the encoder after it is written from the same tables. -/

namespace Sys2Proof

/-! ## Bytes and words -/

/-- `w[7:0]`, the low byte of a word (00_scope R8). -/
def loByte (w : Word) : Byte := w.extractLsb' 0 8

/-- `w[15:8]`, the high byte of a word (00_scope R8). -/
def hiByte (w : Word) : Byte := w.extractLsb' 8 8

/-- The word with low byte `lo` and high byte `hi`: `lo | hi << 8` (42_framing R101). -/
def wordOf (lo hi : Byte) : Word := lo.setWidth 16 ||| (hi.setWidth 16 <<< 8)

/-- A word as it stands in a message, least significant byte first (20_memory R40 (c)). -/
def wordBytes (w : Word) : List Byte := [loByte w, hiByte w]

/-- The words of a message's payload, each read low byte first (20_memory R40 (c), 42_framing R101). -/
def bytesWords : List Byte → List Word
  | lo :: hi :: rest => wordOf lo hi :: bytesWords rest
  | [_] => []
  | [] => []

/-! ## Value codes (10_state R17) -/

/-- Code 0 is Disabled, 1 is Enabled. -/
def Burst32.bit : Burst32 → Bool
  | .disabled => false
  | .enabled => true

/-- The burst width whose code is the bit. -/
def Burst32.ofBit (b : Bool) : Burst32 := if b then .enabled else .disabled

/-- Code 0 is Sel0, 1 is Sel1. -/
def BurstSel.bit : BurstSel → Bool
  | .sel0 => false
  | .sel1 => true

/-- The selector whose code is the bit. -/
def BurstSel.ofBit (b : Bool) : BurstSel := if b then .sel1 else .sel0

/-- Code 0 is Disabled, 1 is Enabled. -/
def Toggle.bit : Toggle → Bool
  | .disabled => false
  | .enabled => true

/-- The toggle whose code is the bit. -/
def Toggle.ofBit (b : Bool) : Toggle := if b then .enabled else .disabled

/-- Code 0 is Wide, 1 is Narrow. -/
def Bandwidth.bit : Bandwidth → Bool
  | .wide => false
  | .narrow => true

/-- The bandwidth whose code is the bit. -/
def Bandwidth.ofBit (b : Bool) : Bandwidth := if b then .narrow else .wide

/-- Codes 0 to 3 are Mode0 to Mode3. -/
def SyncMode.bits : SyncMode → BitVec 2
  | .mode0 => 0#2
  | .mode1 => 1#2
  | .mode2 => 2#2
  | .mode3 => 3#2

/-- The sync mode whose code is given by bit 1 and bit 0. -/
def SyncMode.ofBits (c : BitVec 2) : SyncMode :=
  if c.getLsbD 1 then (if c.getLsbD 0 then .mode3 else .mode2)
  else (if c.getLsbD 0 then .mode1 else .mode0)

/-- Code 0 is Neg, 1 is Pos. -/
def Polarity.bit : Polarity → Bool
  | .neg => false
  | .pos => true

/-- The polarity whose code is the bit. -/
def Polarity.ofBit (b : Bool) : Polarity := if b then .pos else .neg

/-- The code of an error kind, for a model's enumeration only, on no wire (60_exceptions R128, D28). -/
def ErrorKind.code : ErrorKind → Nat
  | .transportError => 0
  | .noDeviceFound => 1
  | .serializationError => 2
  | .noResponse => 3
  | .deviceReportedError _ => 4
  | .clockError => 5
  | .unknownDeviceVariant => 6

/-! ## Bus words (30_encoding R57 to R61, 41_codec R82, R83) -/

/-- REQUEST: `request(addr) = addr << 8` (30_encoding R57, 41_codec R82). -/
def request (addr : Byte) : Word := addr.setWidth 16 <<< 8

/-- The first word of WRITE: the low byte of `data` to `addr` (30_encoding R58, 41_codec R83). -/
def writeLo (addr : Byte) (data : Word) : Word :=
  (addr.setWidth 16 <<< 8) ||| (data &&& 0x00FF#16) ||| 0x8000#16

/-- The second word of WRITE: the high byte of `data` to `(addr + 1) mod 256` (30_encoding R58, 41_codec R83, D15). -/
def writeHi (addr : Byte) (data : Word) : Word :=
  ((addr.setWidth 16 + 1#16) <<< 8) ||| (data >>> 8) ||| 0x8000#16

/-- WRITE: `write(addr, data)`, low byte then high byte (41_codec R83, 90_conflicts C1). -/
def writePair (addr : Byte) (data : Word) : List Word := [writeLo addr data, writeHi addr data]

/-- READ_REG: the words of the register read pair; the value is the answer to the second (41_codec R84, 30_encoding R80). -/
def readPair (addr : Byte) : List Word := [request addr, Config.fill]

/-- A write-byte word: bit 15 set, the target's low seven bits, the data byte (30_encoding R58). -/
def writeByteWord (target : BitVec 7) (data : Byte) : Word :=
  0x8000#16 ||| (target.setWidth 16 <<< 8) ||| data.setWidth 16

/-! ## The register words (30_encoding R75 to R77, 41_codec R93, R94, R96) -/

/-- One bit at a position of a word. -/
def bitAt (b : Bool) (i : Nat) : Word := (BitVec.ofBool b).setWidth 16 <<< i

/-- MSC_ENCODE: each field's code at its position of MSC_LAYOUT, reserved bits 0 (41_codec R93, 30_encoding R75, R76). -/
def mscEncode (m : MscCtrl) : Word :=
  bitAt m.bandwidth.bit 12 ||| bitAt m.burst32.bit 9 ||| bitAt m.burstSel.bit 8 ||| bitAt m.linGComp.bit 7
    ||| bitAt m.pop.bit 6 ||| (m.syncMode.bits.setWidth 16 <<< 2) ||| bitAt m.syncPol.bit 1 ||| bitAt m.drPol.bit 0

/-- MSC_DECODE: each field from its position of MSC_LAYOUT, reserved bits ignored (41_codec R94, 30_encoding R75, R76). -/
def mscDecode (w : Word) : MscCtrl :=
  { burst32 := .ofBit (w.getLsbD 9)
    burstSel := .ofBit (w.getLsbD 8)
    linGComp := .ofBit (w.getLsbD 7)
    pop := .ofBit (w.getLsbD 6)
    bandwidth := .ofBit (w.getLsbD 12)
    syncMode := .ofBits (w.extractLsb' 2 2)
    syncPol := .ofBit (w.getLsbD 1)
    drPol := .ofBit (w.getLsbD 0) }

/-- DIAG_DECODE: a bit test at each of the ten positions of DIAG_LAYOUT (41_codec R96, 30_encoding R77). -/
def diagDecode (w : Word) : DiagStat :=
  { dataPathOverrun := w.getLsbD 1
    flashUpdateFail := w.getLsbD 2
    spiCommError := w.getLsbD 3
    standby := w.getLsbD 4
    sensorFail := w.getLsbD 5
    memoryFail := w.getLsbD 6
    clockError := w.getLsbD 7
    gyro1Fail := w.getLsbD 8
    gyro2Fail := w.getLsbD 9
    accelFail := w.getLsbD 10 }

/-! ## Decoding -/

/-- Why bytes or a word are no instruction (30_encoding R61, R69, R78). -/
inductive Reject where
  /-- No byte at all. -/
  | emptyMessage
  /-- A tag above 0x05. -/
  | unknownTag
  /-- A length other than the tag's. -/
  | wrongLength
  /-- A CFG field id above 0x08. -/
  | badFieldId
  /-- A CFG value code out of the field's range. -/
  | badValueCode
  /-- A B16 or B32 selector byte above 0x01. -/
  | badSelector
  /-- A bus word with bit 15 clear and a low byte other than 0: no row of the table (R61). -/
  | unlistedBusWord
  deriving DecidableEq, Repr

/-- What decoding answers. -/
inductive Decoded (α : Type) where
  | ok (v : α)
  | rejected (r : Reject)
  deriving DecidableEq, Repr

/-- A decoded value mapped on. -/
def Decoded.map {α β : Type} (f : α → β) : Decoded α → Decoded β
  | .ok v => .ok (f v)
  | .rejected r => .rejected r

/-- A value code of a 1-bit field: 0 or 1 (30_encoding R63, `maxcode` of 42_framing R101). -/
def bitCode (v : Byte) : Decoded Bool :=
  if v = 0x00#8 then .ok false else if v = 0x01#8 then .ok true else .rejected .badValueCode

/-- A value code of the sync mode: 0 to 3 (30_encoding R63). -/
def syncModeCode (v : Byte) : Decoded SyncMode :=
  if v.toNat ≤ 3 then .ok (.ofBits (v.extractLsb' 0 2)) else .rejected .badValueCode

/-- The CFG field of a field id and a value code (30_encoding R63). -/
def decodeField (id v : Byte) : Decoded ConfigField :=
  match id.toNat with
  | 0 => (bitCode v).map .burstEn
  | 1 => (bitCode v).map fun b => .burst32 (.ofBit b)
  | 2 => (bitCode v).map fun b => .burstSel (.ofBit b)
  | 3 => (bitCode v).map fun b => .linGComp (.ofBit b)
  | 4 => (bitCode v).map fun b => .pop (.ofBit b)
  | 5 => (bitCode v).map fun b => .bandwidth (.ofBit b)
  | 6 => (syncModeCode v).map .syncMode
  | 7 => (bitCode v).map fun b => .syncPol (.ofBit b)
  | 8 => (bitCode v).map fun b => .drPol (.ofBit b)
  | _ => .rejected .badFieldId

/-- The selector byte of a B16 or B32 (30_encoding R65, R69). -/
def decodeSel (s : Byte) : Decoded BurstSel :=
  if s = 0x00#8 then .ok .sel0 else if s = 0x01#8 then .ok .sel1 else .rejected .badSelector

/-- A burst message's selector and `n` words (30_encoding R65, R66). -/
def decodeBurst (mk : BurstSel → List Word → Message) (n : Nat) : List Byte → Decoded Message
  | [] => .rejected .wrongLength
  | s :: body =>
    if body.length = 2 * n then (decodeSel s).map fun sel => mk sel (bytesWords body)
    else .rejected .wrongLength

/-- The payload after the tag byte (30_encoding R62 to R69, 42_framing R101). -/
def decodePayload (tag : Byte) (p : List Byte) : Decoded Message :=
  match tag.toNat with
  | 0 =>
    match p with
    | [id, v] => (decodeField id v).map .cfg
    | _ => .rejected .wrongLength
  | 1 =>
    match p with
    | [lo, hi] => .ok (.rqr (wordOf lo hi))
    | _ => .rejected .wrongLength
  | 2 => decodeBurst .b16 10 p
  | 3 => decodeBurst .b32 16 p
  | 4 =>
    match p with
    | [] => .ok .rst
    | _ => .rejected .wrongLength
  | 5 =>
    match p with
    | [t] => .ok (.err t)
    | _ => .rejected .wrongLength
  | _ => .rejected .unknownTag

/-- A message from its bytes, with the reason where they are none (30_encoding R69). -/
def decodeMessage : List Byte → Decoded Message
  | [] => .rejected .emptyMessage
  | tag :: p => decodePayload tag p

/-- DESERIALIZE: every rejection is a SerializationError (42_framing R101, 30_encoding R69). -/
def deserialize (bs : List Byte) : Result Message :=
  match decodeMessage bs with
  | .ok m => .ok m
  | .rejected _ => .err .serializationError

/-- The instruction a message stands for: CFG is split by its field (30_encoding R62, R63). -/
def Message.instr : Message → Instr
  | .cfg (.burstEn v) => .cfgBurstEn v
  | .cfg (.burst32 v) => .cfgBurst32 v
  | .cfg (.burstSel v) => .cfgBurstSel v
  | .cfg (.linGComp v) => .cfgLinGComp v
  | .cfg (.pop v) => .cfgPop v
  | .cfg (.bandwidth v) => .cfgBandwidth v
  | .cfg (.syncMode v) => .cfgSyncMode v
  | .cfg (.syncPol v) => .cfgSyncPol v
  | .cfg (.drPol v) => .cfgDrPol v
  | .rqr v => .rqr v
  | .b16 sel ws => .b16 sel ws
  | .b32 sel ws => .b32 sel ws
  | .rst => .rst
  | .err tag => .err tag

/-- A bus word's instruction; the more specific rows 0x6800 and 0x0000 are tried first (30_encoding R61, R81). -/
def decodeBus (w : Word) : Decoded Instr :=
  if w = Config.burstCmd then .ok .burstCmd
  else if w = Config.fill then .ok .fill
  else if w.getLsbD 15 then .ok (.writeByte (w.extractLsb' 8 7) (loByte w))
  else if loByte w = 0x00#8 then .ok (.readReq (hiByte w))
  else .rejected .unlistedBusWord

/-- What the machine decodes: a word on the sensor bus, or the bytes of an unstuffed message (30_encoding R56). -/
inductive Code where
  | bus (w : Word)
  | msg (bs : List Byte)
  deriving DecidableEq, Repr

/-- Decoding, total: every bus word and every byte list is an instruction or is rejected by name. -/
def decode : Code → Decoded Instr
  | .bus w => decodeBus w
  | .msg bs => (decodeMessage bs).map Message.instr

/-! ## Encoding -/

/-- The byte of a 1-bit value code. -/
def bitByte (b : Bool) : Byte := if b then 0x01#8 else 0x00#8

/-- The field id of a CFG field (30_encoding R63). -/
def fieldId : ConfigField → Byte
  | .burstEn _ => 0x00#8
  | .burst32 _ => 0x01#8
  | .burstSel _ => 0x02#8
  | .linGComp _ => 0x03#8
  | .pop _ => 0x04#8
  | .bandwidth _ => 0x05#8
  | .syncMode _ => 0x06#8
  | .syncPol _ => 0x07#8
  | .drPol _ => 0x08#8

/-- The value code of a CFG field (30_encoding R63). -/
def valueCode : ConfigField → Byte
  | .burstEn v => bitByte v
  | .burst32 v => bitByte v.bit
  | .burstSel v => bitByte v.bit
  | .linGComp v => bitByte v.bit
  | .pop v => bitByte v.bit
  | .bandwidth v => bitByte v.bit
  | .syncMode v => v.bits.setWidth 8
  | .syncPol v => bitByte v.bit
  | .drPol v => bitByte v.bit

/-- SERIALIZE: the byte layouts of 30_encoding R63 to R68 (42_framing R100). -/
def serialize : Message → List Byte
  | .cfg f => [0x00#8, fieldId f, valueCode f]
  | .rqr v => 0x01#8 :: wordBytes v
  | .b16 sel ws => 0x02#8 :: bitByte sel.bit :: ws.flatMap wordBytes
  | .b32 sel ws => 0x03#8 :: bitByte sel.bit :: ws.flatMap wordBytes
  | .rst => [0x04#8]
  | .err tag => [0x05#8, tag]

/-- The bus word or the message bytes of an instruction (30_encoding R57 to R68). -/
def encode : Instr → Code
  | .burstCmd => .bus Config.burstCmd
  | .fill => .bus Config.fill
  | .readReq addr => .bus (request addr)
  | .writeByte target data => .bus (writeByteWord target data)
  | .cfgBurstEn v => .msg (serialize (.cfg (.burstEn v)))
  | .cfgBurst32 v => .msg (serialize (.cfg (.burst32 v)))
  | .cfgBurstSel v => .msg (serialize (.cfg (.burstSel v)))
  | .cfgLinGComp v => .msg (serialize (.cfg (.linGComp v)))
  | .cfgPop v => .msg (serialize (.cfg (.pop v)))
  | .cfgBandwidth v => .msg (serialize (.cfg (.bandwidth v)))
  | .cfgSyncMode v => .msg (serialize (.cfg (.syncMode v)))
  | .cfgSyncPol v => .msg (serialize (.cfg (.syncPol v)))
  | .cfgDrPol v => .msg (serialize (.cfg (.drPol v)))
  | .rqr v => .msg (serialize (.rqr v))
  | .b16 sel ws => .msg (serialize (.b16 sel ws))
  | .b32 sel ws => .msg (serialize (.b32 sel ws))
  | .rst => .msg (serialize .rst)
  | .err tag => .msg (serialize (.err tag))

/-! ## The opcode table's numbering -/

/-- The bytes of a message row's number, byte 0 in the highest bits (30_encoding R81, log 12). -/
def tableBytes : Nat → Nat → List Byte
  | 0, _ => []
  | n + 1, w => BitVec.ofNat 8 (w >>> (8 * n)) :: tableBytes n w

/-- The code a table row's number stands for. Rows of 16 bits are bus words, but for the ERR row, 0x05 in the high byte; all
other widths are message rows (30_encoding R81, log 12). -/
def tableCode (nbits w : Nat) : Code :=
  if nbits = 16 then
    if w / 256 % 256 = 5 then .msg (tableBytes 2 w) else .bus (BitVec.ofNat 16 w)
  else .msg (tableBytes (nbits / 8) w)

/-- The instruction the decoder reads from an opcode-table word. -/
def decodeTableWord (nbits w : Nat) : Option Instr :=
  match decode (tableCode nbits w) with
  | .ok i => some i
  | .rejected _ => none

end Sys2Proof
end

