-- ==== Sys2Proof/Machine/State.lean ====
section
/-! DEFINITION. The state of the block (10_state R23 to R37) as plain data, the reasons a step can stop, and the state after
power-on (70_reset_and_hazards R144). -/

namespace Sys2Proof.Machine

/-- The accumulator's buffer as (index, byte) pairs in canonical form: indexes strictly rising, no entry equal to what an
unlisted index reads as (`Memory.wf` in Ops.lean; 00_scope R10, 10_state R25). -/
abbrev Memory := List Host.Cell

/-- The accumulator `acc`: its buffer and fill index (10_state R25). -/
structure Accumulator where
  buf : Memory
  idx : Nat
  deriving DecidableEq, Repr

/-- The firmware-resident `Config` (10_state R23). -/
structure FwConfig where
  burstEnabled : Bool
  mscCtrl : MscCtrl
  deriving DecidableEq, Repr

/-- The firmware loop's program counter, each phase with the data its continuation needs (10_state R31). The request being
served is carried narrowed to what its phase can hold: `f` for `CFG(f)`, `v` for `RQR(v)`, nothing for `RST` (log 10). -/
inductive Phase where
  | top
  | feed (rem : List Byte)
  | cfgW1 (f : ConfigField) (cand : FwConfig) (rem : List Byte)
  | cfgW2 (f : ConfigField) (cand : FwConfig) (rem : List Byte)
  | cfgSettle (f : ConfigField) (cand : FwConfig) (t0 : Nat) (rem : List Byte)
  | cfgR1 (f : ConfigField) (cand : FwConfig) (rem : List Byte)
  | cfgR2 (f : ConfigField) (cand : FwConfig) (rem : List Byte)
  | rqr1 (v : Word) (rem : List Byte)
  | rqr2 (v : Word) (rem : List Byte)
  | rstLow (t0 : Nat) (rem : List Byte)
  | flush
  | burstCheck
  | burstCmd (p : Precision) (sel : BurstSel)
  | burstWord (p : Precision) (sel : BurstSel) (ws : List Word)
  | fault (kind : ErrorKind)
  deriving DecidableEq, Repr

/-- Why the machine stops with a fault. -/
inductive Fault where
  /-- Raised by `exec` of every instruction when the loop is in `Fault(kind)`: no step of FW is enabled there
  (43_firmware_loop R125). Safe: the spec gives no step. `step` never calls `exec` in that phase (log 6). -/
  | loopFaulted (kind : ErrorKind)
  deriving DecidableEq, Repr

/-- Why an instruction has no meaning. -/
inductive Refusal where
  /-- An arm of `exec` that has no meaning yet. Safe. No arm of this model raises it. -/
  | notModelled (mnemonic : String)
  deriving DecidableEq, Repr

/-- The whole state. The fields up to `now` are the spec's (10_state R37). The fields after it are the model's own: the coming
moves and draws of the environment agents as plain data, and the counter the free values of Config are applied to
(logs 1 to 4, 9). -/
structure State where
  /-- `cfg` (R23). -/
  cfg : FwConfig
  /-- `acc_buf` and `acc_idx` (R25). -/
  acc : Accumulator
  /-- `last_txn` (R27). -/
  lastTxn : Option Nat
  /-- `bus_log`, oldest first (R28). -/
  busLog : List BusEvent
  /-- `dr_pending` (R29). -/
  drPending : Bool
  /-- `rst_line` (R30). -/
  rstLine : Level
  /-- `phase` (R31). -/
  phase : Phase
  /-- `resp`, oldest first (R32). -/
  resp : List Message
  /-- `rx`, head first (R33). -/
  rx : List Byte
  /-- `tx`, head first (R34). -/
  tx : List Byte
  /-- `now` (R35). -/
  now : Nat
  /-- Who moves next; empty means `Config.turn` says it (log 1). -/
  turns : List Turn
  /-- The sensor's coming answers; empty means `Config.sensorOracle` gives it (log 2). -/
  answers : List Word
  /-- The coming replies of `Now()`, true for `Ok`; empty means `Config.clockOk` says it (log 3). -/
  clockReplies : List Bool
  /-- Whether the coming transport reads succeed; empty means `Config.readOk` says it (log 4). -/
  readReplies : List Bool
  /-- Whether the coming transport writes succeed; empty means `Config.writeOk` says it (log 4). -/
  writeReplies : List Bool
  /-- The draw counter of the free values. -/
  draws : Nat
  deriving DecidableEq, Repr

/-- `Config.default` (10_state R24). -/
def FwConfig.default : FwConfig :=
  { burstEnabled := false, mscCtrl := mscDecode Config.mscDefault }

/-- The state at power-on (70_reset_and_hazards R144, 10_state R37). `acc.buf` lists nothing (log 7), `now` is a draw (log 8),
and the model's own fields are empty (log 9). -/
def State.reset : State :=
  { cfg := FwConfig.default
    acc := { buf := [], idx := 0 }
    lastTxn := none
    busLog := []
    drPending := false
    rstLine := .high
    phase := .top
    resp := []
    rx := []
    tx := []
    now := Config.bootTime
    turns := []
    answers := []
    clockReplies := []
    readReplies := []
    writeReplies := []
    draws := 0 }

end Sys2Proof.Machine
end

