-- ==== Sys2Proof/Machine/Ops.lean ====
section
/-! DEFINITION. The named operations over the state: the accumulator's memory (00_scope R10), the registers, the draws of the
environment, and the interface primitives of 00_scope R11 (`Now`, `SetReset`, `RxRead`, `TxWrite`, `raise Fault`). -/

namespace Sys2Proof.Machine

/-! ## Memory: the accumulator's buffer -/

/-- What an index that is not listed reads as. The spec leaves the contents at boot unspecified and unread (10_state R26,
log 7). -/
def Memory.unlisted : Byte := 0x00#8

/-- The canonical form: indexes strictly rising, no entry equal to what an unlisted index reads as. -/
abbrev Memory.wf (m : Memory) : Prop :=
  m.Pairwise (fun a b => a.1 < b.1) ∧ ∀ c ∈ m, c.2 ≠ Memory.unlisted

/-- One byte of the buffer. -/
def Memory.read : Memory → Nat → Byte
  | [], _ => Memory.unlisted
  | (k, v) :: m, a => if k = a then v else Memory.read m a

/-- The entry of one byte, or none where the byte is what an unlisted index reads as. -/
def Memory.entry (a : Nat) (v : Byte) : Memory := if v = Memory.unlisted then [] else [(a, v)]

/-- One byte of the buffer written; the canonical form is kept. -/
def Memory.write : Memory → Nat → Byte → Memory
  | [], a, v => Memory.entry a v
  | (k, x) :: m, a, v =>
    if a < k then Memory.entry a v ++ (k, x) :: m
    else if a = k then Memory.entry a v ++ m
    else (k, x) :: Memory.write m a v

/-- `MemRead(i, n)`: the `n` bytes from index `i` (00_scope R10). -/
def Memory.readBytes (m : Memory) (i : Nat) : Nat → List Byte
  | 0 => []
  | n + 1 => m.read i :: Memory.readBytes m (i + 1) n

/-- `MemWrite(i, n, bs)`: the bytes `bs` from index `i` (00_scope R10). -/
def Memory.writeBytes (m : Memory) (i : Nat) : List Byte → Memory
  | [] => m
  | b :: bs => Memory.writeBytes (m.write i b) (i + 1) bs

/-! ## Registers -/

/-- `phase <- P` (00_scope R9). -/
def State.setPhase (s : State) (p : Phase) : State := { s with phase := p }

/-- `cfg <- c`. -/
def State.setCfg (s : State) (c : FwConfig) : State := { s with cfg := c }

/-- `cfg.burst_enabled <- v`. -/
def State.setBurstEnabled (s : State) (v : Bool) : State :=
  { s with cfg := { s.cfg with burstEnabled := v } }

/-- The accumulator replaced. -/
def State.setAcc (s : State) (a : Accumulator) : State := { s with acc := a }

/-- `dr_pending <- v`. -/
def State.setDrPending (s : State) (v : Bool) : State := { s with drPending := v }

/-- `SetReset(level)` (00_scope R11). -/
def State.setReset (s : State) (l : Level) : State := { s with rstLine := l }

/-- `resp <- resp ++ [m]`. -/
def State.pushResp (s : State) (m : Message) : State := { s with resp := s.resp ++ [m] }

/-- `resp <- []`. -/
def State.clearResp (s : State) : State := { s with resp := [] }

/-- `rx <- bs`. -/
def State.setRx (s : State) (bs : List Byte) : State := { s with rx := bs }

/-- `tx <- bs`. -/
def State.setTx (s : State) (bs : List Byte) : State := { s with tx := bs }

/-- `now <- t`. -/
def State.setNow (s : State) (t : Nat) : State := { s with now := t }

/-- The part of the current inbound chunk not yet fed, which a phase carries (10_state R31); none in the other phases. -/
def Phase.rem : Phase → List Byte
  | .top => []
  | .feed rem => rem
  | .cfgW1 _ _ rem => rem
  | .cfgW2 _ _ rem => rem
  | .cfgSettle _ _ _ rem => rem
  | .cfgR1 _ _ rem => rem
  | .cfgR2 _ _ rem => rem
  | .rqr1 _ rem => rem
  | .rqr2 _ rem => rem
  | .rstLow _ rem => rem
  | .flush => []
  | .burstCheck => []
  | .burstCmd _ _ => []
  | .burstWord _ _ _ => []
  | .fault _ => []

/-- `Fault(kind)` or a phase of the running loop. -/
def Phase.isFault : Phase → Bool
  | .top => false
  | .feed _ => false
  | .cfgW1 _ _ _ => false
  | .cfgW2 _ _ _ => false
  | .cfgSettle _ _ _ _ => false
  | .cfgR1 _ _ _ => false
  | .cfgR2 _ _ _ => false
  | .rqr1 _ _ => false
  | .rqr2 _ _ => false
  | .rstLow _ _ => false
  | .flush => false
  | .burstCheck => false
  | .burstCmd _ _ => false
  | .burstWord _ _ _ => false
  | .fault _ => true

/-! ## The environment's draws

Each draw reads the list State holds and, where that is empty, a free value of Config at the draw counter. Taking a draw drops
the list's head and advances the counter (logs 1 to 4). -/

/-- Who moves next (20_memory R52, R54, R55). -/
def State.nextTurn (s : State) : Turn :=
  match s.turns with
  | t :: _ => t
  | [] => Config.turn s.draws

/-- The turn taken. -/
def State.popTurn (s : State) : State := { s with turns := s.turns.tail, draws := s.draws + 1 }

/-- The sensor's answer to the word `w` (20_memory R54). -/
def State.answer (s : State) (w : Word) : Word :=
  match s.answers with
  | r :: _ => r
  | [] => Config.sensorOracle s.busLog s.rstLine w s.draws

/-- The answer taken. -/
def State.popAnswer (s : State) : State := { s with answers := s.answers.tail, draws := s.draws + 1 }

/-- Whether `Now()` answers `Ok(now)` (60_exceptions R131). -/
def State.clockOk (s : State) : Bool :=
  match s.clockReplies with
  | b :: _ => b
  | [] => Config.clockOk s.draws

/-- The clock's reply taken. -/
def State.popClock (s : State) : State :=
  { s with clockReplies := s.clockReplies.tail, draws := s.draws + 1 }

/-- Whether the transport read succeeds (20_memory R50). -/
def State.readOk (s : State) : Bool :=
  match s.readReplies with
  | b :: _ => b
  | [] => Config.readOk s.draws

/-- The transport's read reply taken. -/
def State.popRead (s : State) : State :=
  { s with readReplies := s.readReplies.tail, draws := s.draws + 1 }

/-- Whether the transport write succeeds (20_memory R51). -/
def State.writeOk (s : State) : Bool :=
  match s.writeReplies with
  | b :: _ => b
  | [] => Config.writeOk s.draws

/-- The transport's write reply taken. -/
def State.popWrite (s : State) : State :=
  { s with writeReplies := s.writeReplies.tail, draws := s.draws + 1 }

/-! ## The fault: what stands in the place of taking an exception -/

/-- `raise Fault(kind)`: the phase becomes `Fault(kind)` for good and nothing else changes (00_scope R11, 60_exceptions R131).
There is no return from it (43_firmware_loop R125, 60_exceptions R135). -/
def State.raiseFault (s : State) (kind : ErrorKind) : State := s.setPhase (.fault kind)

/-- `match Now(): Err(ClockError) -> raise Fault(ClockError); Ok(t) -> k` (60_exceptions R131). In `k` the time `t` is `now`. -/
def withClock (k : State → State) (s : State) : State :=
  if s.clockOk then k s.popClock else s.popClock.raiseFault .clockError

/-- `hold until t - t0 >= d` at the time `now`. The bound is written as a sum, so that a time in the future never passes
(00_scope R13, log 18). -/
def elapsed (d t0 now : Nat) : Bool := decide (t0 + d ≤ now)

/-- Whether the minimum interval lets a transaction go: `last_txn == None or t - last_txn >= T_MIN` (43_firmware_loop R111). -/
def intervalOver (tMin : Nat) (lastTxn : Option Nat) (now : Nat) : Bool :=
  match lastTxn with
  | none => true
  | some t0 => elapsed tMin t0 now

/-- `bus_log <- bus_log ++ [(t, w, r)]; last_txn <- Some(t)` at the time `now` (43_firmware_loop R111). -/
def State.logTxn (s : State) (w r : Word) : State :=
  { s with busLog := s.busLog ++ [{ time := s.now, sent := w, received := r }], lastTxn := some s.now }

/-! ## The streams -/

/-- `RxRead(n)`: the bytes removed from the head of `rx`; a failed read gives none and leaves `rx` as it is
(20_memory R50, D21). -/
def State.rxRead (s : State) (n : Nat) : List Byte × State :=
  if s.readOk then (s.rx.take n, s.popRead.setRx (s.rx.drop n)) else ([], s.popRead)

/-- Whether a frame of `n` bytes fits behind `tx` (20_memory R51). -/
def txFits (tx : List Byte) (n : Nat) : Bool := decide (tx.length + n ≤ Config.txCap)

/-- `TxWrite(bs) -> ok`: all of `bs` is appended and the result is true, or nothing is and it is false; a failed write is like
not fitting (00_scope R11, 20_memory R51, D22). -/
def State.txWrite (s : State) (bs : List Byte) : Bool × State :=
  if s.writeOk && txFits s.tx bs.length then (true, s.popWrite.setTx (s.tx ++ bs)) else (false, s.popWrite)

end Sys2Proof.Machine
end

