-- ==== Sys2Proof/Machine/Operands.lean ====
section
/-! DEFINITION. Operand forms: the field a CFG request changes (43_firmware_loop R116), the precision and the burst frame
layout (30_encoding R72 to R74), and the raw values of a burst frame's words (41_codec R87 to R89). -/

namespace Sys2Proof.Machine

/-- `msc_ctrl.<field of f> := <value of f>`; BurstEn is no field of MscCtrl and changes nothing here (43_firmware_loop R116). -/
def setMscField (f : ConfigField) (m : MscCtrl) : MscCtrl :=
  match f with
  | .burstEn _ => m
  | .burst32 v => { m with burst32 := v }
  | .burstSel v => { m with burstSel := v }
  | .linGComp v => { m with linGComp := v }
  | .pop v => { m with pop := v }
  | .bandwidth v => { m with bandwidth := v }
  | .syncMode v => { m with syncMode := v }
  | .syncPol v => { m with syncPol := v }
  | .drPol v => { m with drPol := v }

/-- The handshake's candidate: `cfg` with exactly the requested field replaced (43_firmware_loop R116, D38). -/
def candidate (f : ConfigField) (c : FwConfig) : FwConfig :=
  { c with mscCtrl := setMscField f c.mscCtrl }

/-- The precision the configuration selects (43_firmware_loop R121, 00_scope R7). -/
def precisionOf (m : MscCtrl) : Precision :=
  match m.burst32 with
  | .enabled => .p32
  | .disabled => .p16

/-- `k = p / 16` (30_encoding R74). -/
def wordsPer : Precision → Nat
  | .p16 => 1
  | .p32 => 2

/-- `n(p) = 4 + 6k` words: 10 or 16 (30_encoding R74). -/
def frameWords (p : Precision) : Nat := 4 + 6 * wordsPer p

/-- BURST: the words of a capture, the command and one FILL for each word of the frame (30_encoding R80, 43_firmware_loop R122,
R123). -/
def burstWords (p : Precision) : List Word := Config.burstCmd :: List.replicate (frameWords p) Config.fill

/-- `ws[i]`; every index used lies inside a frame of the right length (log 20). -/
def wordAt (ws : List Word) (i : Nat) : Word := ws.getD i 0x0000#16

/-- `sint16(w)` (00_scope R8). -/
def sint16 (w : Word) : Int := w.toInt

/-- `uint16(w)` (00_scope R8). -/
def uint16 (w : Word) : Nat := w.toNat

/-- RAW16 (41_codec R87). -/
def raw16 (ws : List Word) (c : Nat) : Rat := (sint16 (wordAt ws (1 + c)) : Rat)

/-- RAW32: integer word signed, fraction word unsigned over 2^15 (41_codec R88). -/
def raw32 (ws : List Word) (c : Nat) : Rat :=
  (sint16 (wordAt ws (1 + 2 * c)) : Rat) + (uint16 (wordAt ws (2 + 2 * c)) : Rat) / (Config.fracDiv : Rat)

/-- The raw value of component `c` at a precision (41_codec R91). -/
def rawComponent (p : Precision) (ws : List Word) (c : Nat) : Rat :=
  match p with
  | .p16 => raw16 ws c
  | .p32 => raw32 ws c

/-- `temp_raw(ws) = sint16(ws[1 + 6k])` (41_codec R89). -/
def tempRaw (p : Precision) (ws : List Word) : Int := sint16 (wordAt ws (1 + 6 * wordsPer p))

/-- `cntr(ws) = uint16(ws[2 + 6k])` (41_codec R89). -/
def dataCntr (p : Precision) (ws : List Word) : Word := wordAt ws (2 + 6 * wordsPer p)

end Sys2Proof.Machine
end

