-- ==== Sys2Proof/Machine/Flags.lean ====
section
/-! DEFINITION. The flags: the `corrupted` flag of a burst frame (41_codec R85, R86) and the data-ready latch
(60_exceptions R133). The DiagStat flags are a bit test and stand in Decode.lean (`diagDecode`). -/

namespace Sys2Proof.Machine

/-- The sum of the two bytes of each word. -/
def byteSum (ws : List Word) : Nat := (ws.map fun w => (hiByte w).toNat + (loByte w).toNat).sum

/-- CHECKSUM: the byte sum of all words but the last, mod 65536 (41_codec R85). -/
def checksum (ws : List Word) : Word := BitVec.ofNat 16 (byteSum ws.dropLast % Config.checksumMod)

/-- VALIDATE: `checksum(ws) == ws[n-1]` (41_codec R86). -/
def validate (ws : List Word) : Bool := checksum ws == wordAt ws (ws.length - 1)

/-- `corrupted = not validate(ws)`, a flag of the sample, never an error (41_codec R86). -/
def corrupted (ws : List Word) : Bool := !validate ws

/-- The sensor's data-ready edge sets the latch, whether or not bursts are enabled (60_exceptions R133). -/
def State.latchEdge (s : State) : State := s.setDrPending true

/-- The end of a capture clears the latch, and nothing else does (43_firmware_loop R124, 60_exceptions R133). -/
def State.clearEdge (s : State) : State := s.setDrPending false

end Sys2Proof.Machine
end

