-- ==== Sys2Proof/Machine/Framing.lean ====
section
/-! DEFINITION. Message framing and the reassembly buffer: COBS (42_framing R102, R103), FRAME and UNFRAME (R104), FEED (R107)
and DRAIN (R108). They are functions of an accumulator, so the host side's own accumulator follows the same text (00_scope R2). -/

namespace Sys2Proof.Machine

/-- One finished COBS block: its code byte and its data bytes (42_framing R102). -/
def cobsBlock (blk : List Byte) : List Byte := BitVec.ofNat 8 (blk.length + 1) :: blk

/-- The encoder's loop; `blk` is the data of the pending block, so its code is `blk.length + 1` (42_framing R102, log 19). -/
def cobsEncodeFrom : List Byte → List Byte → List Byte
  | [], blk => cobsBlock blk
  | b :: bs, blk =>
    if b = Config.sentinel then cobsBlock blk ++ cobsEncodeFrom bs []
    else if blk.length + 2 = 255 then cobsBlock (blk ++ [b]) ++ cobsEncodeFrom bs []
    else cobsEncodeFrom bs (blk ++ [b])

/-- COBS_ENCODE (42_framing R102). -/
def cobsEncode (data : List Byte) : List Byte := cobsEncodeFrom data []

/-- A byte put in front of a result. -/
def consResult (b : Byte) : Result (List Byte) → Result (List Byte)
  | .ok bs => .ok (b :: bs)
  | .err e => .err e

/-- The decoder's loop. `left` data bytes of the current block are still to come; `zero` says that the finished block stands
for a 0x00 after it, which is written once a further block begins (42_framing R103, log 19). -/
def cobsDecodeFrom : List Byte → Nat → Bool → Result (List Byte)
  | [], 0, _ => .ok []
  | [], _ + 1, _ => .err .serializationError
  | c :: bs, 0, zero =>
    if c = Config.sentinel then .err .serializationError
    else if zero then consResult Config.sentinel (cobsDecodeFrom bs (c.toNat - 1) (c != 0xFF#8))
    else cobsDecodeFrom bs (c.toNat - 1) (c != 0xFF#8)
  | b :: bs, left + 1, zero =>
    if b = Config.sentinel then .err .serializationError
    else consResult b (cobsDecodeFrom bs left zero)

/-- COBS_DECODE (42_framing R103). -/
def cobsDecode (enc : List Byte) : Result (List Byte) := cobsDecodeFrom enc 0 false

/-- FRAME: a leading sentinel, the stuffed message, a trailing sentinel (42_framing R104, 30_encoding R70). -/
def frame (m : Message) : List Byte :=
  Config.sentinel :: (cobsEncode (serialize m) ++ [Config.sentinel])

/-- UNFRAME: `cobs_decode(f) >>= deserialize` (42_framing R104). -/
def unframe (f : List Byte) : Result Message :=
  match cobsDecode f with
  | .ok bs => deserialize bs
  | .err e => .err e

/-- The four outcomes of one FEED (42_framing R106). -/
inductive FeedResult where
  | consumed
  | success (m : Message) (rest : List Byte)
  | overFull (rest : List Byte)
  | deserError (rest : List Byte)
  deriving DecidableEq, Repr

/-- The bytes before the first sentinel and those after it, where there is one (42_framing R107). -/
def splitSentinel : List Byte → Option (List Byte × List Byte)
  | [] => none
  | b :: bs =>
    if b = Config.sentinel then some ([], bs)
    else
      match splitSentinel bs with
      | some (pre, post) => some (b :: pre, post)
      | none => none

/-- FEED on an input with a sentinel: `pre` stands before it and `rest` after it (42_framing R107). -/
def Accumulator.feedFrame (a : Accumulator) (pre rest : List Byte) : FeedResult × Accumulator :=
  if Config.accCap < a.idx + (pre.length + 1) then (.overFull rest, { a with idx := 0 })
  else
    let buf := a.buf.writeBytes a.idx (pre ++ [Config.sentinel])
    match unframe (buf.readBytes 0 (a.idx + pre.length)) with
    | .ok m => (.success m rest, { buf := buf, idx := 0 })
    | .err _ => (.deserError rest, { buf := buf, idx := 0 })

/-- FEED on an input with no sentinel (42_framing R107). -/
def Accumulator.feedPart (a : Accumulator) (input : List Byte) : FeedResult × Accumulator :=
  if Config.accCap < a.idx + input.length then
    (.overFull (input.drop (Config.accCap - a.idx)), { a with idx := 0 })
  else (.consumed, { buf := a.buf.writeBytes a.idx input, idx := a.idx + input.length })

/-- FEED: at most one frame of the input goes through the accumulator (42_framing R107). -/
def Accumulator.feed (a : Accumulator) (input : List Byte) : FeedResult × Accumulator :=
  match input with
  | [] => (.consumed, a)
  | b :: bs =>
    match splitSentinel (b :: bs) with
    | some (pre, rest) => a.feedFrame pre rest
    | none => a.feedPart (b :: bs)

/-- DRAIN with a bound on the number of FEEDs: the messages, the accumulator and the bytes not fed (42_framing R108). -/
def Accumulator.drainFor : Nat → Accumulator → List Byte → List Message × Accumulator × List Byte
  | 0, a, bytes => ([], a, bytes)
  | fuel + 1, a, bytes =>
    if bytes = [] then ([], a, [])
    else
      match a.feed bytes with
      | (.consumed, a') => ([], a', [])
      | (.success m rest, a') =>
        let r := Accumulator.drainFor fuel a' rest
        (m :: r.1, r.2)
      | (.overFull rest, a') => Accumulator.drainFor fuel a' rest
      | (.deserError rest, a') => Accumulator.drainFor fuel a' rest

/-- DRAIN. Each FEED consumes a byte, or empties a full buffer without consuming and the next one consumes, so twice the
length and one more is always enough (42_framing R108, log 21). -/
def Accumulator.drain (a : Accumulator) (bytes : List Byte) : List Message × Accumulator × List Byte :=
  Accumulator.drainFor (2 * bytes.length + 1) a bytes

/-- An accumulator as at boot: `acc_idx = 0` (10_state R26). -/
def Accumulator.fresh : Accumulator := { buf := [], idx := 0 }

end Sys2Proof.Machine
end

