-- ==== Sys2Proof/Machine/Bus.lean ====
section
/-! DEFINITION. One bus word transaction (43_firmware_loop R111) with the continuation of the phase that makes it (R116, R117,
R122, R123, R124), and the meanings of the four bus-word instructions over it. -/

namespace Sys2Proof.Machine

/-- What a phase does with no step of its own in `Fault(kind)`: an instruction run there is refused a step (R125, log 6). -/
def whileRunning (k : State → State) (s : State) : Host.Outcome State Fault Refusal :=
  match s.phase with
  | .fault kind => .fault (.loopFaulted kind)
  | _ => .next (k s)

/-- The bus word a phase sends (43_firmware_loop R116, R117, R122, R123); none in a phase that makes no transaction. -/
def sentWord : Phase → Option Word
  | .top => none
  | .feed _ => none
  | .cfgW1 _ cand _ => some (writeLo Config.mscCtrlAddr (mscEncode cand.mscCtrl))
  | .cfgW2 _ cand _ => some (writeHi Config.mscCtrlAddr (mscEncode cand.mscCtrl))
  | .cfgSettle _ _ _ _ => none
  | .cfgR1 _ _ _ => some (request Config.mscCtrlAddr)
  | .cfgR2 _ _ _ => some Config.fill
  | .rqr1 v _ => some v
  | .rqr2 _ _ => some Config.fill
  | .rstLow _ _ => none
  | .flush => none
  | .burstCheck => none
  | .burstCmd _ _ => some Config.burstCmd
  | .burstWord _ _ _ => some Config.fill
  | .fault _ => none

/-- The end of the handshake: commit and ack only when the read-back decodes to the candidate (43_firmware_loop R116). -/
def finishHandshake (f : ConfigField) (cand : FwConfig) (rem : List Byte) (r : Word) (s : State) : State :=
  if mscDecode r = cand.mscCtrl then ((s.setCfg cand).pushResp (.cfg f)).setPhase (.feed rem)
  else s.setPhase (.feed rem)

/-- The message a finished capture is tagged as (43_firmware_loop R124). -/
def burstMessage (p : Precision) (sel : BurstSel) (ws : List Word) : Message :=
  match p with
  | .p16 => .b16 sel ws
  | .p32 => .b32 sel ws

/-- BURST EMIT: the frame is offered to `tx`, the result of TxWrite discarded, the latch cleared whether or not it fitted
(43_firmware_loop R124). -/
def emitBurst (p : Precision) (sel : BurstSel) (ws : List Word) (s : State) : State :=
  (s.txWrite (frame (burstMessage p sel ws))).2.clearEdge.setPhase .top

/-- BURST WORD: the answer joins the words so far; the last one is emitted in the same step (43_firmware_loop R123). -/
def takeBurstWord (p : Precision) (sel : BurstSel) (ws : List Word) (r : Word) (s : State) : State :=
  if (ws ++ [r]).length = frameWords p then emitBurst p sel (ws ++ [r]) s
  else s.setPhase (.burstWord p sel (ws ++ [r]))

/-- What the calling phase does once its transaction has been answered with `r`, at the time `now`. A phase that makes no
transaction goes on unchanged (log 11). -/
def afterXfer (r : Word) (s : State) : State :=
  match s.phase with
  | .cfgW1 f cand rem => s.setPhase (.cfgW2 f cand rem)
  | .cfgW2 f cand rem => s.setPhase (.cfgSettle f cand s.now rem)
  | .cfgR1 f cand rem => s.setPhase (.cfgR2 f cand rem)
  | .cfgR2 f cand rem => finishHandshake f cand rem r s
  | .rqr1 v rem => s.setPhase (.rqr2 v rem)
  | .rqr2 _ rem => (s.pushResp (.rqr r)).setPhase (.feed rem)
  | .burstCmd p sel => s.setPhase (.burstWord p sel [])
  | .burstWord p sel ws => takeBurstWord p sel ws r s
  | .top => s
  | .feed _ => s
  | .cfgSettle _ _ _ _ => s
  | .rstLow _ _ => s
  | .flush => s
  | .burstCheck => s
  | .fault _ => s

/-- The transaction itself, once the interval is over: the answer drawn, the transaction logged, the phase continued
(43_firmware_loop R111). -/
def transact (w : Word) (s : State) : State :=
  afterXfer (s.answer w) (s.popAnswer.logTxn w (s.answer w))

/-- XFER: `Now()`, the hold, the transaction and the continuation (43_firmware_loop R111). A held step changes nothing and is
tried again (log 5). -/
def xfer (w : Word) (s : State) : State :=
  withClock (fun s => if intervalOver Config.tMin s.lastTxn s.now then transact w s else s) s

/-- XFER in the running loop. -/
def runXfer (w : Word) (s : State) : Host.Outcome State Fault Refusal := whileRunning (xfer w) s

/-- BURST_CMD: the capture command as one transaction (30_encoding R59, 43_firmware_loop R111, R122). -/
def execBurstCmd (s : State) : Host.Outcome State Fault Refusal := runXfer Config.burstCmd s

/-- FILL: the fill word as one transaction (30_encoding R60, 43_firmware_loop R111, R116, R117, R123, R124). -/
def execFill (s : State) : Host.Outcome State Fault Refusal := runXfer Config.fill s

/-- READ_REQ: the read request as one transaction (30_encoding R57, 41_codec R82, R84, 43_firmware_loop R111, R116, R117). -/
def execReadReq (addr : Byte) (s : State) : Host.Outcome State Fault Refusal := runXfer (request addr) s

/-- WRITE_BYTE: one byte of a register write as one transaction (30_encoding R58, 41_codec R83, 43_firmware_loop R111, R116,
R117). -/
def execWriteByte (target : BitVec 7) (data : Byte) (s : State) : Host.Outcome State Fault Refusal :=
  runXfer (writeByteWord target data) s

end Sys2Proof.Machine
end

