-- ==== Sys2Proof/Machine/Messages.lean ====
section
/-! DEFINITION. The message handlers: what the firmware does when it dispatches a decoded message (43_firmware_loop R114 to
R119). The rest of the chunk is the one the phase carries. -/

namespace Sys2Proof.Machine

/-- `resp <- resp ++ [m]; phase <- Feed(rest)`: an ack queued, the rest of the chunk fed on. -/
def ackAndFeed (m : Message) (s : State) : State := (s.pushResp m).setPhase (.feed s.phase.rem)

/-- CFG_MSC on dispatch: acked with no bus traffic when the candidate equals the current configuration, else the handshake
begins (43_firmware_loop R116). -/
def dispatchMsc (f : ConfigField) (s : State) : State :=
  if (candidate f s.cfg).mscCtrl = s.cfg.mscCtrl then ackAndFeed (.cfg f) s
  else s.setPhase (.cfgW1 f (candidate f s.cfg) s.phase.rem)

/-- IGNORE: accepted, no action (43_firmware_loop R119). -/
def ignoreMessage (s : State) : State := s.setPhase (.feed s.phase.rem)

/-- RST on dispatch: the reset line goes low and the pulse's start time is kept (43_firmware_loop R118). -/
def startReset (s : State) : State :=
  withClock (fun s => (s.setReset .low).setPhase (.rstLow s.now s.phase.rem)) s

/-- CFG.BurstEn: purely local, always acked (43_firmware_loop R115, D41). -/
def execCfgBurstEn (v : Bool) (s : State) : Host.Outcome State Fault Refusal :=
  whileRunning (fun s => ackAndFeed (.cfg (.burstEn v)) (s.setBurstEnabled v)) s

/-- CFG.Burst32 (43_firmware_loop R116). -/
def execCfgBurst32 (v : Burst32) (s : State) : Host.Outcome State Fault Refusal :=
  whileRunning (dispatchMsc (.burst32 v)) s

/-- CFG.BurstSel (43_firmware_loop R116). -/
def execCfgBurstSel (v : BurstSel) (s : State) : Host.Outcome State Fault Refusal :=
  whileRunning (dispatchMsc (.burstSel v)) s

/-- CFG.LinGComp (43_firmware_loop R116). -/
def execCfgLinGComp (v : Toggle) (s : State) : Host.Outcome State Fault Refusal :=
  whileRunning (dispatchMsc (.linGComp v)) s

/-- CFG.Pop (43_firmware_loop R116). -/
def execCfgPop (v : Toggle) (s : State) : Host.Outcome State Fault Refusal :=
  whileRunning (dispatchMsc (.pop v)) s

/-- CFG.Bandwidth (43_firmware_loop R116). -/
def execCfgBandwidth (v : Bandwidth) (s : State) : Host.Outcome State Fault Refusal :=
  whileRunning (dispatchMsc (.bandwidth v)) s

/-- CFG.SyncMode (43_firmware_loop R116). -/
def execCfgSyncMode (v : SyncMode) (s : State) : Host.Outcome State Fault Refusal :=
  whileRunning (dispatchMsc (.syncMode v)) s

/-- CFG.SyncPol (43_firmware_loop R116). -/
def execCfgSyncPol (v : Polarity) (s : State) : Host.Outcome State Fault Refusal :=
  whileRunning (dispatchMsc (.syncPol v)) s

/-- CFG.DrPol (43_firmware_loop R116). -/
def execCfgDrPol (v : Polarity) (s : State) : Host.Outcome State Fault Refusal :=
  whileRunning (dispatchMsc (.drPol v)) s

/-- RQR: the raw transaction pair begins with the host's word, unchanged (43_firmware_loop R114, R117). -/
def execRqr (v : Word) (s : State) : Host.Outcome State Fault Refusal :=
  whileRunning (fun s => s.setPhase (.rqr1 v s.phase.rem)) s

/-- B16 inbound: accepted, no action, whatever its selector and words (43_firmware_loop R119). -/
def execB16 (_sel : BurstSel) (_ws : List Word) (s : State) : Host.Outcome State Fault Refusal :=
  whileRunning ignoreMessage s

/-- B32 inbound: accepted, no action, whatever its selector and words (43_firmware_loop R119). -/
def execB32 (_sel : BurstSel) (_ws : List Word) (s : State) : Host.Outcome State Fault Refusal :=
  whileRunning ignoreMessage s

/-- RST: the reset pulse begins (43_firmware_loop R118). -/
def execRst (s : State) : Host.Outcome State Fault Refusal := whileRunning startReset s

/-- ERR inbound: accepted, no action, whatever its tag (43_firmware_loop R119). -/
def execErr (_tag : Byte) (s : State) : Host.Outcome State Fault Refusal := whileRunning ignoreMessage s

end Sys2Proof.Machine
end

