-- ==== Sys2Proof/Machine/Dispatch.lean ====
section
/-! DEFINITION. The dispatch: one arm per instruction. -/

namespace Sys2Proof.Machine

/-- Runs one instruction: a bus word the loop sends, or a message the loop has decoded. -/
def exec (i : Instr) (s : State) : Host.Outcome State Fault Refusal :=
  match i with
  -- bus words
  | .burstCmd => Sys2Proof.Machine.execBurstCmd s
  | .fill => Sys2Proof.Machine.execFill s
  | .readReq addr => Sys2Proof.Machine.execReadReq addr s
  | .writeByte target data => Sys2Proof.Machine.execWriteByte target data s
  -- messages
  | .cfgBurstEn v => Sys2Proof.Machine.execCfgBurstEn v s
  | .cfgBurst32 v => Sys2Proof.Machine.execCfgBurst32 v s
  | .cfgBurstSel v => Sys2Proof.Machine.execCfgBurstSel v s
  | .cfgLinGComp v => Sys2Proof.Machine.execCfgLinGComp v s
  | .cfgPop v => Sys2Proof.Machine.execCfgPop v s
  | .cfgBandwidth v => Sys2Proof.Machine.execCfgBandwidth v s
  | .cfgSyncMode v => Sys2Proof.Machine.execCfgSyncMode v s
  | .cfgSyncPol v => Sys2Proof.Machine.execCfgSyncPol v s
  | .cfgDrPol v => Sys2Proof.Machine.execCfgDrPol v s
  | .rqr v => Sys2Proof.Machine.execRqr v s
  | .b16 sel ws => Sys2Proof.Machine.execB16 sel ws s
  | .b32 sel ws => Sys2Proof.Machine.execB32 sel ws s
  | .rst => Sys2Proof.Machine.execRst s
  | .err tag => Sys2Proof.Machine.execErr tag s

end Sys2Proof.Machine
end

