-- ==== Sys2Proof/Machine/Loop.lean ====
section
/-! DEFINITION. The firmware loop's steps (43_firmware_loop R110 to R125), the environment's moves (20_memory R52, R54, R55) and
the placing of an instruction where the loop takes its next one. Step.lean only calls these. -/

namespace Sys2Proof.Machine

/-- TOP: one chunk is taken when inbound bytes are available, else the flush comes next (43_firmware_loop R112). -/
def topStep (s : State) : State :=
  if s.rx = [] then s.setPhase .flush
  else (s.rxRead Config.rxChunk).2.setPhase (.feed (s.rxRead Config.rxChunk).1)

/-- A faulting step changes no other state than the phase (60_exceptions R131), so the accumulator that the step's own FEED
wrote is put back when the dispatch faults. R113 lists the accumulator among what a FEED step writes: DESIGN CHOICE, safe, R131
is followed (log 26). -/
def undoFeedOnFault (acc : Accumulator) (t : State) : State := if t.phase.isFault then t.setAcc acc else t

/-- DISPATCH: the handler of the message's kind, in the step of the FEED that decoded it (43_firmware_loop R114). `acc` is the
accumulator before that FEED; only RST, whose clock query may fail, ever needs it (43_firmware_loop R118, log 26). -/
def dispatchMessage (acc : Accumulator) (m : Message) (s : State) : Host.Outcome State Fault Refusal :=
  match exec m.instr s with
  | .next t => .next (undoFeedOnFault acc t)
  | .fault f => .fault f
  | .refused r => .refused r

/-- FEED STEP: the rest of the chunk is fed once, and a decoded message is dispatched in the same step
(43_firmware_loop R113, R114). -/
def feedStep (rem : List Byte) (s : State) : Host.Outcome State Fault Refusal :=
  if rem = [] then .next (s.setPhase .flush)
  else
    match s.acc.feed rem with
    | (.consumed, a) => .next ((s.setAcc a).setPhase .flush)
    | (.success m rest, a) => dispatchMessage s.acc m ((s.setAcc a).setPhase (.feed rest))
    | (.overFull rest, a) => .next ((s.setAcc a).setPhase (.feed rest))
    | (.deserError rest, a) => .next ((s.setAcc a).setPhase (.feed rest))

/-- A bus phase sends its word: the instruction the word decodes to is run. A word no row of the table lists, which only RQR
can send, goes through the same transaction (30_encoding R61, 43_firmware_loop R111, R117, log 23). -/
def sendStep (w : Word) (s : State) : Host.Outcome State Fault Refusal :=
  match decodeBus w with
  | .ok i => exec i s
  | .rejected _ => runXfer w s

/-- CFG_SETTLE: held until the settle delay is over (43_firmware_loop R116). -/
def settleStep (f : ConfigField) (cand : FwConfig) (t0 : Nat) (rem : List Byte) (s : State) : State :=
  withClock (fun s => if elapsed Config.tSettle t0 s.now then s.setPhase (.cfgR1 f cand rem) else s) s

/-- RST_LOW: held for the pulse width; then the line goes high, `cfg` is the default and RST is acked
(43_firmware_loop R118). -/
def resetStep (t0 : Nat) (rem : List Byte) (s : State) : State :=
  withClock (fun s =>
    if elapsed Config.tRst t0 s.now then
      (((s.setReset .high).setCfg FwConfig.default).pushResp .rst).setPhase (.feed rem)
    else s) s

/-- FLUSH: each response is framed on its own and offered whole, in order, and the result of TxWrite is discarded
(43_firmware_loop R120). -/
def flushStep (s : State) : State :=
  (s.resp.foldl (fun t m => (t.txWrite (frame m)).2) s).clearResp.setPhase .burstCheck

/-- BURST CHECK: precision and selector are taken from `cfg` here (43_firmware_loop R121). -/
def burstCheckStep (s : State) : State :=
  if s.cfg.burstEnabled && s.drPending then
    s.setPhase (.burstCmd (precisionOf s.cfg.mscCtrl) s.cfg.mscCtrl.burstSel)
  else s.setPhase .top

/-- One step of the firmware loop. In `Fault(kind)` no step is enabled, so the turn passes (43_firmware_loop R125, log 6). -/
def fwStep (s : State) : Host.Outcome State Fault Refusal :=
  match s.phase with
  | .top => .next (topStep s)
  | .feed rem => feedStep rem s
  | .cfgW1 _ cand _ => sendStep (writeLo Config.mscCtrlAddr (mscEncode cand.mscCtrl)) s
  | .cfgW2 _ cand _ => sendStep (writeHi Config.mscCtrlAddr (mscEncode cand.mscCtrl)) s
  | .cfgSettle f cand t0 rem => .next (settleStep f cand t0 rem s)
  | .cfgR1 _ _ _ => sendStep (request Config.mscCtrlAddr) s
  | .cfgR2 _ _ _ => sendStep Config.fill s
  | .rqr1 v _ => sendStep v s
  | .rqr2 _ _ => sendStep Config.fill s
  | .rstLow t0 rem => .next (resetStep t0 rem s)
  | .flush => .next (flushStep s)
  | .burstCheck => .next (burstCheckStep s)
  | .burstCmd _ _ => sendStep Config.burstCmd s
  | .burstWord _ _ _ => sendStep Config.fill s
  | .fault _ => .next s

/-- A move of the environment (20_memory R52, R54, R55, 60_exceptions R133). A turn of the loop is none of them. -/
def envMove (t : Turn) (s : State) : State :=
  match t with
  | .fw => s
  | .hostWrite bs => s.setRx (s.rx ++ bs)
  | .hostRead n => s.setTx (s.tx.drop n)
  | .drEdge => s.latchEdge
  | .tick d => s.setNow (s.now + d)
  | .sensorAnswer r => { s with answers := s.answers ++ [r] }

/-- The move a turn stands for. -/
def takeTurn (t : Turn) (s : State) : Host.Outcome State Fault Refusal :=
  match t with
  | .fw => fwStep s
  | .hostWrite bs => .next (envMove (.hostWrite bs) s)
  | .hostRead n => .next (envMove (.hostRead n) s)
  | .drEdge => .next (envMove .drEdge s)
  | .tick d => .next (envMove (.tick d) s)
  | .sensorAnswer r => .next (envMove (.sensorAnswer r) s)

/-- The phase in which the loop sends a bus word next: the capture's own phases for BURST_CMD and FILL, and raw forwarding for
every other word (log 14). -/
def phaseFor (w : Word) (m : MscCtrl) : Phase :=
  if w = Config.burstCmd then .burstCmd (precisionOf m) m.burstSel
  else if w = Config.fill then .burstWord (precisionOf m) m.burstSel []
  else .rqr1 w []

/-- A code placed where the next step takes it: the loop's turn comes first; a bus word in the phase that sends it, a message
as a stuffed frame that is fed next into an empty accumulator (log 14). -/
def State.place (s : State) (c : Code) : State :=
  match c with
  | .bus w => { s with turns := .fw :: s.turns, phase := phaseFor w s.cfg.mscCtrl }
  | .msg bs =>
    { s with
      turns := .fw :: s.turns
      phase := .feed (cobsEncode bs ++ [Config.sentinel])
      acc := { s.acc with idx := 0 } }

end Sys2Proof.Machine
end

