-- ==== Sys2Proof/Machine/Step.lean ====
section
/-! DEFINITION. The step of the whole machine: the next turn is taken from State, by the firmware loop or by an agent of the
environment (43_firmware_loop preamble, log 1). -/

namespace Sys2Proof.Machine

/-- One step: the agent whose turn it is makes its move. -/
def step (s : State) : Host.Outcome State Fault Refusal := takeTurn s.nextTurn s.popTurn

/-- `s` with the instruction of an opcode-table word placed where the next step takes it (log 14). -/
def State.withFetchWord (s : State) (nbits w : Nat) : State := s.place (tableCode nbits w)

end Sys2Proof.Machine
end

