-- ==== Sys2Proof/Machine/Codec.lean ====
section
/-! DEFINITION. The codec's host-side operations: physical values (41_codec R90), the burst decode (R91) and the device-variant
lookup (R97, R98); and the codes of the error kinds (60_exceptions R128). All are total functions and write no state. -/

namespace Sys2Proof.Machine

/-- A triple ordered x, y, z (10_state R20). -/
structure Vec3 where
  x : Rat
  y : Rat
  z : Rat
  deriving DecidableEq, Repr

/-- The six-axis payload of a sample (10_state R20). -/
inductive Payload where
  | sel0 (rate accel : Vec3)
  | sel1 (dangle dvel : Vec3)
  deriving DecidableEq, Repr

/-- The decoded sample (10_state R20). -/
structure BurstData where
  diag : DiagStat
  payload : Payload
  temp : Rat
  dataCntr : Word
  corrupted : Bool
  deriving DecidableEq, Repr

/-- PHYSICAL: the exact product of a raw value and a scale (41_codec R90, D12). -/
def physical (raw scale : Rat) : Rat := raw * scale

/-- Components `c`, `c + 1`, `c + 2` in physical units (41_codec R91). -/
def physicalTriple (p : Precision) (ws : List Word) (c : Nat) (scale : Rat) : Vec3 :=
  { x := physical (rawComponent p ws c) scale
    y := physical (rawComponent p ws (c + 1)) scale
    z := physical (rawComponent p ws (c + 2)) scale }

/-- The decode of one raw frame (41_codec R91). A checksum mismatch is carried in the flag. -/
def decodeFrame (v : AdisVersion) (p : Precision) (sel : BurstSel) (ws : List Word) : BurstData :=
  { diag := diagDecode (wordAt ws 0)
    payload :=
      match sel with
      | .sel0 => .sel0 (physicalTriple p ws 0 v.scales.gyro) (physicalTriple p ws 3 v.scales.accel)
      | .sel1 => .sel1 (physicalTriple p ws 0 v.scales.dangle) (physicalTriple p ws 3 v.scales.dvel)
    temp := physical (tempRaw p ws : Rat) v.scales.temp
    dataCntr := dataCntr p ws
    corrupted := corrupted ws }

/-- BURST_DECODE: the selector of the message decides the payload; any other message gives None (41_codec R91). -/
def burstDecode (v : AdisVersion) : Message → Option BurstData
  | .b16 sel ws => some (decodeFrame v .p16 sel ws)
  | .b32 sel ws => some (decodeFrame v .p32 sel ws)
  | .cfg _ => none
  | .rqr _ => none
  | .rst => none
  | .err _ => none

/-- The first row of a table that fits, or UnknownDeviceVariant. -/
def lookupVariant (rows : List AdisVersion) (fits : AdisVersion → Bool) : Result AdisVersion :=
  match rows.find? fits with
  | some v => .ok v
  | none => .err .unknownDeviceVariant

/-- FROM_ID (41_codec R97). -/
def fromId (pid ver : Nat) : Result AdisVersion :=
  lookupVariant Config.variants fun r => r.pid == pid && r.ver == ver

/-- FROM_NAME: byte for byte, case-sensitive (41_codec R98, D10). -/
def fromName (name : String) : Result AdisVersion :=
  lookupVariant Config.variants fun r => r.name == name

/-- The model codes of the error kinds; no code stands on any wire (60_exceptions R128). -/
def errorCode : ErrorKind → Nat
  | .transportError => 0
  | .noDeviceFound => 1
  | .serializationError => 2
  | .noResponse => 3
  | .deviceReportedError _ => 4
  | .clockError => 5
  | .unknownDeviceVariant => 6

end Sys2Proof.Machine
end

