-- ==== Sys2Proof/Safety.lean ====
section
/-! DEFINITION. What claims are stated in: the invariant of the machine (42_framing R105, 10_state R25 to R34,
43_firmware_loop R116 to R124, 70_reset_and_hazards R149) and the words the statements use. -/

namespace Sys2Proof.Machine

/-! ## The accumulator -/

/-- The bytes received so far of the frame in progress: `acc_buf[0..acc_idx]` (10_state R25). -/
def Accumulator.pending (a : Accumulator) : List Byte := a.buf.readBytes 0 a.idx

/-- The accumulator invariant (42_framing R105): the index within the capacity, the buffer canonical and within its 256
indexes, and no sentinel among the bytes received so far. -/
structure Accumulator.wf (a : Accumulator) : Prop where
  idxBound : a.idx ≤ Config.accCap
  canonical : a.buf.wf
  inside : ∀ c ∈ a.buf, c.1 < Config.accCap
  noSentinel : ∀ j, j < a.idx → a.buf.read j ≠ Config.sentinel

/-! ## The bus history -/

/-- Any two entries of the history, the earlier one first, are at least the minimum interval apart
(70_reset_and_hazards R149). -/
def Spaced (log : List BusEvent) : Prop := log.Pairwise fun e1 e2 => e1.time + Config.tMin ≤ e2.time

/-- The history ends with a transaction that sent `w`. -/
def LastSent (log : List BusEvent) (w : Word) : Prop := ∃ pre e, log = pre ++ [e] ∧ e.sent = w

/-- The history ends with the second write word of a handshake for `cand`, sent at `t0` (43_firmware_loop R116). -/
def WroteAt (log : List BusEvent) (cand : FwConfig) (t0 : Nat) : Prop :=
  ∃ pre e, log = pre ++ [e] ∧ e.sent = writeHi Config.mscCtrlAddr (mscEncode cand.mscCtrl) ∧ e.time = t0

/-- The history ends with that word and then, at least the settle delay later, the read request of the control register
(43_firmware_loop R116, R126, 70_reset_and_hazards R150). -/
def RequestedAfterSettle (log : List BusEvent) (cand : FwConfig) : Prop :=
  ∃ pre e1 e2, log = pre ++ [e1, e2] ∧ e1.sent = writeHi Config.mscCtrlAddr (mscEncode cand.mscCtrl) ∧
    e2.sent = request Config.mscCtrlAddr ∧ e1.time + Config.tSettle ≤ e2.time

/-! ## The phase -/

/-- A handshake in progress: the candidate is `cfg` with the requested field replaced, and it differs (43_firmware_loop R116). -/
def Handshaking (s : State) (f : ConfigField) (cand : FwConfig) (rem : List Byte) : Prop :=
  cand = candidate f s.cfg ∧ cand.mscCtrl ≠ s.cfg.mscCtrl ∧ rem.length ≤ Config.rxChunk

/-- A capture in progress: enabled, edge latched, precision and selector those of `cfg` (43_firmware_loop R121). -/
def Capturing (s : State) (p : Precision) (sel : BurstSel) : Prop :=
  s.cfg.burstEnabled = true ∧ s.drPending = true ∧ p = precisionOf s.cfg.mscCtrl ∧ sel = s.cfg.mscCtrl.burstSel

/-- What the data of each phase says about the rest of the state. -/
def PhaseOk (s : State) : Prop :=
  match s.phase with
  | .top => s.resp = []
  | .feed rem => rem.length ≤ Config.rxChunk
  | .cfgW1 f cand rem => Handshaking s f cand rem
  | .cfgW2 f cand rem =>
    Handshaking s f cand rem ∧ LastSent s.busLog (writeLo Config.mscCtrlAddr (mscEncode cand.mscCtrl))
  | .cfgSettle f cand t0 rem => Handshaking s f cand rem ∧ WroteAt s.busLog cand t0
  | .cfgR1 f cand rem =>
    Handshaking s f cand rem ∧ ∃ t0, WroteAt s.busLog cand t0 ∧ t0 + Config.tSettle ≤ s.now
  | .cfgR2 f cand rem => Handshaking s f cand rem ∧ RequestedAfterSettle s.busLog cand
  | .rqr1 _ rem => rem.length ≤ Config.rxChunk
  | .rqr2 v rem => rem.length ≤ Config.rxChunk ∧ LastSent s.busLog v
  | .rstLow t0 rem => rem.length ≤ Config.rxChunk ∧ s.rstLine = .low ∧ t0 ≤ s.now
  | .flush => True
  | .burstCheck => s.resp = []
  | .burstCmd p sel => s.resp = [] ∧ Capturing s p sel
  | .burstWord p sel ws =>
    s.resp = [] ∧ Capturing s p sel ∧ ws.length < frameWords p ∧
      ∃ pre cmd evs, s.busLog = pre ++ cmd :: evs ∧ cmd.sent = Config.burstCmd ∧
        (∀ e ∈ evs, e.sent = Config.fill) ∧ evs.map (·.received) = ws
  | .fault kind => kind = .clockError

/-- The messages the firmware queues: acks of CFG and RST, and RQR responses (43_firmware_loop R127). -/
def isResponse : Message → Bool
  | .cfg _ => true
  | .rqr _ => true
  | .b16 _ _ => false
  | .b32 _ _ => false
  | .rst => true
  | .err _ => false

/-- The phases in which the reset line may be low: the pulse, and a fault that cut it short (43_firmware_loop R118). -/
def lineMayBeLow : Phase → Bool
  | .top => false
  | .feed _ => false
  | .cfgW1 _ _ _ => false
  | .cfgW2 _ _ _ => false
  | .cfgSettle _ _ _ _ => false
  | .cfgR1 _ _ _ => false
  | .cfgR2 _ _ _ => false
  | .rqr1 _ _ => false
  | .rqr2 _ _ => false
  | .rstLow _ _ => true
  | .flush => false
  | .burstCheck => false
  | .burstCmd _ _ => false
  | .burstWord _ _ _ => false
  | .fault _ => true

/-- The invariant of the machine. -/
structure State.Inv (s : State) : Prop where
  accWf : s.acc.wf
  txBound : s.tx.length ≤ Config.txCap
  lastLogged : s.lastTxn = s.busLog.getLast?.map (·.time)
  pastLog : ∀ e ∈ s.busLog, e.time ≤ s.now
  spaced : Spaced s.busLog
  phaseOk : PhaseOk s
  responses : ∀ m ∈ s.resp, isResponse m = true
  lineHigh : s.rstLine = .low → lineMayBeLow s.phase = true

/-! ## Words of the statements -/

/-- The minimum interval is over (43_firmware_loop R111). -/
def IntervalOver (s : State) : Prop := s.lastTxn = none ∨ ∃ t0, s.lastTxn = some t0 ∧ t0 + Config.tMin ≤ s.now

/-- The loop's turn is next and the clock answers `Ok` to its query. -/
def ClockAnswers (s : State) : Prop := s.nextTurn = .fw ∧ s.popTurn.clockOk = true

/-- The loop's turn is next and the clock's query fails. -/
def ClockFails (s : State) : Prop := s.nextTurn = .fw ∧ s.popTurn.clockOk = false

/-- The loop's turn is next and a bus word may go (43_firmware_loop R111). -/
def ReadyToSend (s : State) : Prop := ClockAnswers s ∧ IntervalOver s

/-- The word the sensor answers in the step that sends `w` (20_memory R54). -/
def answerTo (s : State) (w : Word) : Word := s.popTurn.popClock.answer w

/-- The state after a step that sent `w` and went on to the phase `p`: the turn, the clock's reply and the answer are taken, the
transaction is logged at `now`, and nothing else changes (43_firmware_loop R111). -/
def sentState (s : State) (w : Word) (p : Phase) : State :=
  { s.popTurn.popClock.popAnswer with
    busLog := s.busLog ++ [{ time := s.now, sent := w, received := answerTo s w }]
    lastTxn := some s.now
    phase := p }

/-- What a CFG request for an MscCtrl field does on dispatch, `m` being `cfg.msc_ctrl` with the field replaced: an ack when
that changes nothing, else the handshake's first phase (43_firmware_loop R116). -/
def handshakeBegins (s : State) (f : ConfigField) (m : MscCtrl) (rest : List Byte) : State :=
  if m = s.cfg.mscCtrl then { s with resp := s.resp ++ [.cfg f], phase := .feed rest }
  else { s with phase := .cfgW1 f { s.cfg with mscCtrl := m } rest }

/-- `tx` after frames have been offered in order, each with the transport's reply to it: appended whole, or dropped
(43_firmware_loop R120, 20_memory R51). -/
def offered : List Byte → List (Message × Bool) → List Byte
  | tx, [] => tx
  | tx, (m, ok) :: ms =>
    if ok = true ∧ tx.length + (frame m).length ≤ 64 then offered (tx ++ frame m) ms else offered tx ms

/-- The bus words of a capture that sends its command at `t` and one FILL every minimum interval after it, answered by `rs`
(43_firmware_loop R122, R123). -/
def captureEvents (t : Nat) : List Word → List BusEvent
  | [] => []
  | r :: rs => { time := t + Config.tMin, sent := 0x0000#16, received := r } :: captureEvents (t + Config.tMin) rs

/-- The pending block's code byte closed and a new block begun, or a data byte taken (42_framing R102): the output so far, the
place of the pending code byte and its value. -/
def cobsEncodeStep (st : List Byte × Nat × Nat) (b : Byte) : List Byte × Nat × Nat :=
  if b = 0x00#8 then (st.1.set st.2.1 (BitVec.ofNat 8 st.2.2) ++ [0x00#8], st.1.length, 1)
  else if st.2.2 + 1 = 0xFF then
    ((st.1 ++ [b]).set st.2.1 (BitVec.ofNat 8 (st.2.2 + 1)) ++ [0x00#8], st.1.length + 1, 1)
  else (st.1 ++ [b], st.2.1, st.2.2 + 1)

/-- The encoder as 42_framing R102 writes it: an output list, the index of the pending code byte and its value. -/
def cobsEncodeLiteral (data : List Byte) : List Byte :=
  let st := data.foldl cobsEncodeStep ([0x00#8], 0, 1)
  st.1.set st.2.1 (BitVec.ofNat 8 st.2.2)

/-- The inner loop of 42_framing R103: `n` data bytes from index `i`, appended to `out`. -/
def cobsDecodeBlock (enc : List Byte) : Nat → Nat → List Byte → Option (List Byte × Nat)
  | 0, i, out => some (out, i)
  | n + 1, i, out =>
    if enc.length ≤ i ∨ enc.getD i 0x00#8 = 0x00#8 then none
    else cobsDecodeBlock enc n (i + 1) (out ++ [enc.getD i 0x00#8])

/-- The outer loop of 42_framing R103 at index `i`, with a bound on its rounds. -/
def cobsDecodeLoop (enc : List Byte) : Nat → Nat → List Byte → Result (List Byte)
  | 0, _, out => .ok out
  | fuel + 1, i, out =>
    if enc.length ≤ i then .ok out
    else if enc.getD i 0x00#8 = 0x00#8 then .err .serializationError
    else
      match cobsDecodeBlock enc ((enc.getD i 0x00#8).toNat - 1) (i + 1) out with
      | none => .err .serializationError
      | some (out', i') =>
        if enc.getD i 0x00#8 ≠ 0xFF#8 ∧ i' < enc.length then cobsDecodeLoop enc fuel i' (out' ++ [0x00#8])
        else cobsDecodeLoop enc fuel i' out'

/-- The decoder as 42_framing R103 writes it; every round takes at least one byte. -/
def cobsDecodeLiteral (enc : List Byte) : Result (List Byte) := cobsDecodeLoop enc (enc.length + 1) 0 []

/-- The total length of a message by its tag (30_encoding R62). -/
def tagLength (tag : Nat) : Nat :=
  match tag with
  | 0 => 3
  | 1 => 3
  | 2 => 22
  | 3 => 34
  | 4 => 1
  | 5 => 2
  | _ => 0

/-- The largest value code of a CFG field id (42_framing R101 `maxcode`). -/
def maxCode (id : Nat) : Nat := if id = 6 then 3 else 1

/-- The zero-delimited pieces of a byte list: what stands between its sentinels, the ends included (42_framing R107). -/
def pieces : List Byte → List (List Byte)
  | [] => [[]]
  | b :: bs =>
    if b = Config.sentinel then [] :: pieces bs
    else
      match pieces bs with
      | [] => [[b]]
      | p :: ps => (b :: p) :: ps

/-- The phases whose step queries the clock (60_exceptions R131). The `Feed` phase queries it only when it dispatches RST. -/
def queriesClock : Phase → Bool
  | .top => false
  | .feed _ => true
  | .cfgW1 _ _ _ => true
  | .cfgW2 _ _ _ => true
  | .cfgSettle _ _ _ _ => true
  | .cfgR1 _ _ _ => true
  | .cfgR2 _ _ _ => true
  | .rqr1 _ _ => true
  | .rqr2 _ _ => true
  | .rstLow _ _ => true
  | .flush => false
  | .burstCheck => false
  | .burstCmd _ _ => true
  | .burstWord _ _ _ => true
  | .fault _ => false

/-! ## Runs and fairness (70_reset_and_hazards R147) -/

/-- What the environment draws for one step: who moves, and every answer that the step may ask for (log 27). -/
structure Draws where
  turn : Turn
  answer : Word
  clockOk : Bool
  readOk : Bool
  writeOks : List Bool
  deriving DecidableEq, Repr

/-- The state with the environment's draws for its next step in place. -/
def State.withDraws (s : State) (d : Draws) : State :=
  { s with turns := [d.turn], answers := [d.answer], clockReplies := [d.clockOk], readReplies := [d.readOk],
           writeReplies := d.writeOks }

/-- An infinite run: every state is the step of the one before it under the draws the environment makes there (log 27). -/
def IsRun (env : Nat → Draws) (r : Nat → State) : Prop :=
  ∀ n, step ((r n).withDraws (env n)) = .next (r (n + 1))

/-- Whether the loop's next step is enabled when its clock query, if it makes one, answers `Ok`: the holds of
43_firmware_loop R111, R116 and R118 are over, and the loop is not in `Fault` (R125). -/
def FwEnabled (s : State) : Prop :=
  match s.phase with
  | .top => True
  | .feed _ => True
  | .cfgW1 _ _ _ => IntervalOver s
  | .cfgW2 _ _ _ => IntervalOver s
  | .cfgSettle _ _ t0 _ => t0 + Config.tSettle ≤ s.now
  | .cfgR1 _ _ _ => IntervalOver s
  | .cfgR2 _ _ _ => IntervalOver s
  | .rqr1 _ _ => IntervalOver s
  | .rqr2 _ _ => IntervalOver s
  | .rstLow t0 _ => t0 + Config.tRst ≤ s.now
  | .flush => True
  | .burstCheck => True
  | .burstCmd _ _ => IntervalOver s
  | .burstWord _ _ _ => IntervalOver s
  | .fault _ => False

/-- The phases whose step may be held: those R147 says are left. -/
def mayBeHeld : Phase → Bool
  | .top => false
  | .feed _ => false
  | .cfgW1 _ _ _ => true
  | .cfgW2 _ _ _ => true
  | .cfgSettle _ _ _ _ => true
  | .cfgR1 _ _ _ => true
  | .cfgR2 _ _ _ => true
  | .rqr1 _ _ => true
  | .rqr2 _ _ => true
  | .rstLow _ _ => true
  | .flush => false
  | .burstCheck => false
  | .burstCmd _ _ => true
  | .burstWord _ _ _ => true
  | .fault _ => false

/-- `CLOCK` advances without bound: for every `t`, the run reaches `now >= t` (R147). -/
def ClockUnbounded (r : Nat → State) : Prop := ∀ t, ∃ n, t ≤ (r n).now

/-- `FW` is weakly fair: a step of the loop that stays enabled is eventually taken (R147). -/
def FwWeaklyFair (env : Nat → Draws) (r : Nat → State) : Prop :=
  ∀ n, (∀ m, n ≤ m → FwEnabled (r m)) → ∃ m, n ≤ m ∧ (env m).turn = .fw

/-- The next step draws `Err(ClockError)`: the loop moves, makes a clock query, and the query fails. `Feed` makes one only when it
dispatches RST (60_exceptions R131). -/
def DrawsClockError (s : State) : Prop :=
  ClockFails s ∧ queriesClock s.phase = true ∧
    ∀ rem, s.phase = .feed rem → ∃ rest a, s.acc.feed rem = (.success .rst rest, a)

/-- A run under the two premises of R147 that starts in a state of the invariant, outside the fault, and never draws
`Err(ClockError)`. -/
structure FairRun (env : Nat → Draws) (r : Nat → State) : Prop where
  isRun : IsRun env r
  startInv : (r 0).Inv
  startRunning : (r 0).phase.isFault = false
  clockUnbounded : ClockUnbounded r
  weaklyFair : FwWeaklyFair env r
  neverClockError : ∀ n, ¬DrawsClockError ((r n).withDraws (env n))

end Sys2Proof.Machine
end

