-- ==== Sys2Proof/Certificates/Slice0/Obligations.lean ====
section
/-! DEFINITION. The statements for the provers, from the numbered rules of the spec. -/

open Sys2Proof Sys2Proof.Machine

/-! ## Encoding -/

/-- Decoding what the encoder writes gives every well-formed instruction back, with every operand (30_encoding R57 to R69). -/
def Obligations.DecodeOfEncodeIsIdentity : Prop :=
  ∀ i : Instr, i.wf = true → decode (encode i) = .ok i

/-- Encoding what the decoder reads gives the word or the bytes back, and the instruction is well-formed
(30_encoding R57 to R69). -/
def Obligations.EncodeOfDecodeIsIdentity : Prop :=
  ∀ (c : Code) (i : Instr), decode c = .ok i → encode i = c ∧ i.wf = true

/-- `deserialize` accepts exactly what `serialize` writes, fails in exactly the listed cases, and `serialize` is injective
(30_encoding R69). -/
def Obligations.DeserializeAcceptsExactlySerialized : Prop :=
  (∀ (bs : List Byte) (m : Message), deserialize bs = .ok m ↔ m.wf = true ∧ serialize m = bs) ∧
  (∀ bs : List Byte, deserialize bs = .err .serializationError ↔
    bs = [] ∨ 5 < (bs.getD 0 0#8).toNat ∨ bs.length ≠ tagLength (bs.getD 0 0#8).toNat ∨
      (bs.getD 0 0#8 = 0x00#8 ∧
        (8 < (bs.getD 1 0#8).toNat ∨ maxCode (bs.getD 1 0#8).toNat < (bs.getD 2 0#8).toNat)) ∨
      ((bs.getD 0 0#8 = 0x02#8 ∨ bs.getD 0 0#8 = 0x03#8) ∧ 1 < (bs.getD 1 0#8).toNat)) ∧
  (∀ m m' : Message, m.wf = true → m'.wf = true → serialize m = serialize m' → m = m')

/-- Words and bytes written out from the encoding tables decode to what they stand for: every kind of bus word, every CFG field
id with every value code, RQR, B16, B32, RST and ERR (30_encoding R57 to R68). -/
def Obligations.SpecWordsDecode : Prop :=
  decode (.bus 0b0110100000000000#16) = .ok .burstCmd ∧
  decode (.bus 0b0000000000000000#16) = .ok .fill ∧
  decode (.bus 0b0110000000000000#16) = .ok (.readReq 0x60#8) ∧
  decode (.bus 0b1110000011000001#16) = .ok (.writeByte 0x60#7 0xC1#8) ∧
  decode (.bus 0b0001001000110100#16) = .rejected .unlistedBusWord ∧
  decode (.msg [0x00#8, 0x00#8, 0x01#8]) = .ok (.cfgBurstEn true) ∧
  decode (.msg [0x00#8, 0x01#8, 0x01#8]) = .ok (.cfgBurst32 .enabled) ∧
  decode (.msg [0x00#8, 0x02#8, 0x01#8]) = .ok (.cfgBurstSel .sel1) ∧
  decode (.msg [0x00#8, 0x03#8, 0x01#8]) = .ok (.cfgLinGComp .enabled) ∧
  decode (.msg [0x00#8, 0x04#8, 0x01#8]) = .ok (.cfgPop .enabled) ∧
  decode (.msg [0x00#8, 0x05#8, 0x01#8]) = .ok (.cfgBandwidth .narrow) ∧
  decode (.msg [0x00#8, 0x06#8, 0x00#8]) = .ok (.cfgSyncMode .mode0) ∧
  decode (.msg [0x00#8, 0x06#8, 0x01#8]) = .ok (.cfgSyncMode .mode1) ∧
  decode (.msg [0x00#8, 0x06#8, 0x02#8]) = .ok (.cfgSyncMode .mode2) ∧
  decode (.msg [0x00#8, 0x06#8, 0x03#8]) = .ok (.cfgSyncMode .mode3) ∧
  decode (.msg [0x00#8, 0x07#8, 0x01#8]) = .ok (.cfgSyncPol .pos) ∧
  decode (.msg [0x00#8, 0x08#8, 0x01#8]) = .ok (.cfgDrPol .pos) ∧
  decode (.msg [0x00#8, 0x00#8, 0x00#8]) = .ok (.cfgBurstEn false) ∧
  decode (.msg [0x00#8, 0x01#8, 0x00#8]) = .ok (.cfgBurst32 .disabled) ∧
  decode (.msg [0x00#8, 0x02#8, 0x00#8]) = .ok (.cfgBurstSel .sel0) ∧
  decode (.msg [0x00#8, 0x03#8, 0x00#8]) = .ok (.cfgLinGComp .disabled) ∧
  decode (.msg [0x00#8, 0x04#8, 0x00#8]) = .ok (.cfgPop .disabled) ∧
  decode (.msg [0x00#8, 0x05#8, 0x00#8]) = .ok (.cfgBandwidth .wide) ∧
  decode (.msg [0x00#8, 0x07#8, 0x00#8]) = .ok (.cfgSyncPol .neg) ∧
  decode (.msg [0x00#8, 0x08#8, 0x00#8]) = .ok (.cfgDrPol .neg) ∧
  decode (.msg [0x01#8, 0x00#8, 0x60#8]) = .ok (.rqr 0x6000#16) ∧
  decode (.msg [0x02#8, 0x01#8, 0x01#8, 0x02#8, 0x03#8, 0x04#8, 0x05#8, 0x06#8, 0x07#8, 0x08#8, 0x09#8, 0x0A#8, 0x0B#8,
    0x0C#8, 0x0D#8, 0x0E#8, 0x0F#8, 0x10#8, 0x11#8, 0x12#8, 0x13#8, 0x14#8]) =
    .ok (.b16 .sel1 [0x0201#16, 0x0403#16, 0x0605#16, 0x0807#16, 0x0A09#16, 0x0C0B#16, 0x0E0D#16, 0x100F#16, 0x1211#16,
      0x1413#16]) ∧
  decode (.msg [0x03#8, 0x00#8, 0x01#8, 0x02#8, 0x03#8, 0x04#8, 0x05#8, 0x06#8, 0x07#8, 0x08#8, 0x09#8, 0x0A#8, 0x0B#8,
    0x0C#8, 0x0D#8, 0x0E#8, 0x0F#8, 0x10#8, 0x11#8, 0x12#8, 0x13#8, 0x14#8, 0x15#8, 0x16#8, 0x17#8, 0x18#8, 0x19#8,
    0x1A#8, 0x1B#8, 0x1C#8, 0x1D#8, 0x1E#8, 0x1F#8, 0x20#8]) =
    .ok (.b32 .sel0 [0x0201#16, 0x0403#16, 0x0605#16, 0x0807#16, 0x0A09#16, 0x0C0B#16, 0x0E0D#16, 0x100F#16, 0x1211#16,
      0x1413#16, 0x1615#16, 0x1817#16, 0x1A19#16, 0x1C1B#16, 0x1E1D#16, 0x201F#16]) ∧
  decode (.msg [0x04#8]) = .ok .rst ∧
  decode (.msg [0x05#8, 0x05#8]) = .ok (.err 0x05#8) ∧
  decode (.msg [0x04#8, 0x00#8]) = .rejected .wrongLength

/-- The words of register access. The read request is the address in the high byte; address 0 gives FILL, 0x68 gives BURST_CMD,
and from 0x80 on bit 15 is set (41_codec R82). Both words of a register write have bit 15 set, the low seven bits of the target
address and the data byte; the low byte goes to `addr` and the high byte to `(addr + 1) mod 256` (30_encoding R58). A register
read is the request, then FILL (41_codec R84). -/
def Obligations.RegisterAccessWords : Prop :=
  (∀ addr : Byte, (request addr).toNat = addr.toNat * 256 % 65536) ∧
  request 0x00#8 = Config.fill ∧ request 0x68#8 = Config.burstCmd ∧ request 0x60#8 = 0x6000#16 ∧
  (∀ addr : Byte, 0x80 ≤ addr.toNat → (request addr).getLsbD 15 = true) ∧
  (∀ (addr : Byte) (data : Word), ∃ w0 w1, writePair addr data = [w0, w1] ∧
    w0 = (addr.setWidth 16 <<< 8 ||| (data &&& 0xFF#16) ||| 0x8000#16) ∧
    w1 = ((addr.setWidth 16 + 1#16) <<< 8 ||| (data >>> 8) ||| 0x8000#16) ∧
    w0.getLsbD 15 = true ∧ w0.extractLsb' 8 7 = addr.extractLsb' 0 7 ∧ w0.extractLsb' 0 8 = data.extractLsb' 0 8 ∧
    w1.getLsbD 15 = true ∧ w1.extractLsb' 8 7 = (addr + 1#8).extractLsb' 0 7 ∧
    w1.extractLsb' 0 8 = data.extractLsb' 8 8) ∧
  writePair 0x60#8 0x00C1#16 = [0xE0C1#16, 0xE100#16] ∧
  (∀ addr : Byte, readPair addr = [request addr, 0x0000#16])

/-- MscCtrl and its register word: each field stands at its own bits in both directions, with its value codes (41_codec R93, R94,
the layout of 30_encoding R75); decode after encode is the identity, encode after decode keeps the modeled bits, reserved bits are
written 0 and ignored on read (41_codec R95, 30_encoding R76). -/
def Obligations.MscRegisterRoundTrip : Prop :=
  (∀ m : MscCtrl,
    ((mscEncode m).getLsbD 12 = true ↔ m.bandwidth = .narrow) ∧ ((mscEncode m).getLsbD 9 = true ↔ m.burst32 = .enabled) ∧
    ((mscEncode m).getLsbD 8 = true ↔ m.burstSel = .sel1) ∧ ((mscEncode m).getLsbD 7 = true ↔ m.linGComp = .enabled) ∧
    ((mscEncode m).getLsbD 6 = true ↔ m.pop = .enabled) ∧
    ((mscEncode m).getLsbD 3 = true ↔ m.syncMode = .mode2 ∨ m.syncMode = .mode3) ∧
    ((mscEncode m).getLsbD 2 = true ↔ m.syncMode = .mode1 ∨ m.syncMode = .mode3) ∧
    ((mscEncode m).getLsbD 1 = true ↔ m.syncPol = .pos) ∧ ((mscEncode m).getLsbD 0 = true ↔ m.drPol = .pos)) ∧
  (∀ w : Word,
    ((mscDecode w).bandwidth = .narrow ↔ w.getLsbD 12 = true) ∧ ((mscDecode w).burst32 = .enabled ↔ w.getLsbD 9 = true) ∧
    ((mscDecode w).burstSel = .sel1 ↔ w.getLsbD 8 = true) ∧ ((mscDecode w).linGComp = .enabled ↔ w.getLsbD 7 = true) ∧
    ((mscDecode w).pop = .enabled ↔ w.getLsbD 6 = true) ∧
    ((mscDecode w).syncMode = .mode0 ↔ w.extractLsb' 2 2 = 0#2) ∧
    ((mscDecode w).syncMode = .mode1 ↔ w.extractLsb' 2 2 = 1#2) ∧
    ((mscDecode w).syncMode = .mode2 ↔ w.extractLsb' 2 2 = 2#2) ∧
    ((mscDecode w).syncMode = .mode3 ↔ w.extractLsb' 2 2 = 3#2) ∧
    ((mscDecode w).syncPol = .pos ↔ w.getLsbD 1 = true) ∧ ((mscDecode w).drPol = .pos ↔ w.getLsbD 0 = true)) ∧
  (∀ m : MscCtrl, mscDecode (mscEncode m) = m) ∧
  (∀ w : Word, mscEncode (mscDecode w) = w &&& 0x13CF#16) ∧
  (∀ m : MscCtrl, mscEncode m &&& 0xEC30#16 = 0x0000#16) ∧
  (∀ w : Word, mscDecode (w &&& 0x13CF#16) = mscDecode w)

/-- DiagStat is a bit test at bits 1 to 10 and depends on no other bit (41_codec R96). -/
def Obligations.DiagFlagsAreTheirBits : Prop :=
  (∀ w : Word, diagDecode w =
    { dataPathOverrun := w.getLsbD 1, flashUpdateFail := w.getLsbD 2, spiCommError := w.getLsbD 3,
      standby := w.getLsbD 4, sensorFail := w.getLsbD 5, memoryFail := w.getLsbD 6, clockError := w.getLsbD 7,
      gyro1Fail := w.getLsbD 8, gyro2Fail := w.getLsbD 9, accelFail := w.getLsbD 10 }) ∧
  (∀ w w' : Word, diagDecode w = diagDecode w' ↔ w &&& 0x07FE#16 = w' &&& 0x07FE#16)

/-! ## The codec -/

/-- The checksum is the byte sum of all words but the last, mod 65536, and never exceeds 510 a word (41_codec R85). -/
def Obligations.ChecksumIsTheByteSum : Prop :=
  ∀ ws : List Word, ws.length = 10 ∨ ws.length = 16 →
    (checksum ws).toNat =
      (∑ i ∈ Finset.range (ws.length - 1), ((ws.getD i 0#16).toNat / 256 + (ws.getD i 0#16).toNat % 256)) % 65536 ∧
    (checksum ws).toNat ≤ 510 * (ws.length - 1)

/-- `corrupted` says that the checksum differs from the last word; any single-bit flip before the last word of a valid frame
sets it, two flips may cancel, and decoding proceeds either way (41_codec R86). -/
def Obligations.SingleBitFlipIsDetected : Prop :=
  (∀ ws : List Word, corrupted ws = true ↔ checksum ws ≠ wordAt ws (ws.length - 1)) ∧
  (∀ (ws : List Word) (i j : Nat), ws.length = 10 ∨ ws.length = 16 → validate ws = true → i < ws.length - 1 → j < 16 →
    corrupted (ws.set i (wordAt ws i ^^^ (1#16 <<< j))) = true) ∧
  (∃ (ws : List Word) (i i' j : Nat), ws.length = 10 ∧ validate ws = true ∧ i ≠ i' ∧ i < 9 ∧ i' < 9 ∧ j < 16 ∧
    corrupted ((ws.set i (wordAt ws i ^^^ (1#16 <<< j))).set i' (wordAt ws i' ^^^ (1#16 <<< j))) = false) ∧
  (∀ (v : AdisVersion) (sel : BurstSel) (ws : List Word),
    (burstDecode v (.b16 sel ws)).map (·.corrupted) = some (corrupted ws) ∧
    (burstDecode v (.b32 sel ws)).map (·.corrupted) = some (corrupted ws))

/-- The raw values: signed 16-bit components at 16-bit precision, integer plus fraction over 2^15 at 32-bit precision, a signed
temperature and an unsigned counter, each at its offset (41_codec R87, R88, R89). -/
def Obligations.RawComponentValues : Prop :=
  (∀ w : Word, sint16 w = if w.toNat < 32768 then (w.toNat : Int) else (w.toNat : Int) - 65536) ∧
  (∀ (ws : List Word) (c : Nat), ws.length = 10 → c < 6 →
    raw16 ws c = ((sint16 (ws.getD (1 + c) 0#16) : Int) : Rat)) ∧
  (∀ (ws : List Word) (c : Nat), ws.length = 16 → c < 6 →
    raw32 ws c = ((sint16 (ws.getD (1 + 2 * c) 0#16) : Int) : Rat) + ((ws.getD (2 + 2 * c) 0#16).toNat : Rat) / 32768) ∧
  (∀ ws : List Word, tempRaw .p16 ws = sint16 (ws.getD 7 0#16) ∧ dataCntr .p16 ws = ws.getD 8 0#16) ∧
  (∀ ws : List Word, tempRaw .p32 ws = sint16 (ws.getD 13 0#16) ∧ dataCntr .p32 ws = ws.getD 14 0#16)

/-- The burst decode: each quantity is its raw value times its scale, the message's selector decides the payload, and a message
that is no burst gives None (41_codec R91). -/
def Obligations.BurstDecodeFields : Prop :=
  (∀ (v : AdisVersion) (ws : List Word), burstDecode v (.b16 .sel0 ws) = some
    { diag := diagDecode (wordAt ws 0)
      payload := .sel0
        ⟨raw16 ws 0 * v.scales.gyro, raw16 ws 1 * v.scales.gyro, raw16 ws 2 * v.scales.gyro⟩
        ⟨raw16 ws 3 * v.scales.accel, raw16 ws 4 * v.scales.accel, raw16 ws 5 * v.scales.accel⟩
      temp := (tempRaw .p16 ws : Rat) * v.scales.temp, dataCntr := dataCntr .p16 ws, corrupted := !validate ws }) ∧
  (∀ (v : AdisVersion) (ws : List Word), burstDecode v (.b16 .sel1 ws) = some
    { diag := diagDecode (wordAt ws 0)
      payload := .sel1
        ⟨raw16 ws 0 * v.scales.dangle, raw16 ws 1 * v.scales.dangle, raw16 ws 2 * v.scales.dangle⟩
        ⟨raw16 ws 3 * v.scales.dvel, raw16 ws 4 * v.scales.dvel, raw16 ws 5 * v.scales.dvel⟩
      temp := (tempRaw .p16 ws : Rat) * v.scales.temp, dataCntr := dataCntr .p16 ws, corrupted := !validate ws }) ∧
  (∀ (v : AdisVersion) (ws : List Word), burstDecode v (.b32 .sel0 ws) = some
    { diag := diagDecode (wordAt ws 0)
      payload := .sel0
        ⟨raw32 ws 0 * v.scales.gyro, raw32 ws 1 * v.scales.gyro, raw32 ws 2 * v.scales.gyro⟩
        ⟨raw32 ws 3 * v.scales.accel, raw32 ws 4 * v.scales.accel, raw32 ws 5 * v.scales.accel⟩
      temp := (tempRaw .p32 ws : Rat) * v.scales.temp, dataCntr := dataCntr .p32 ws, corrupted := !validate ws }) ∧
  (∀ (v : AdisVersion) (ws : List Word), burstDecode v (.b32 .sel1 ws) = some
    { diag := diagDecode (wordAt ws 0)
      payload := .sel1
        ⟨raw32 ws 0 * v.scales.dangle, raw32 ws 1 * v.scales.dangle, raw32 ws 2 * v.scales.dangle⟩
        ⟨raw32 ws 3 * v.scales.dvel, raw32 ws 4 * v.scales.dvel, raw32 ws 5 * v.scales.dvel⟩
      temp := (tempRaw .p32 ws : Rat) * v.scales.temp, dataCntr := dataCntr .p32 ws, corrupted := !validate ws }) ∧
  (∀ (v : AdisVersion) (f : ConfigField) (w : Word) (t : Byte), burstDecode v (.cfg f) = none ∧
    burstDecode v (.rqr w) = none ∧ burstDecode v .rst = none ∧ burstDecode v (.err t) = none)

/-- The variant lookups answer the one row that fits, or UnknownDeviceVariant; no two rows share a pair or a name
(41_codec R97, R98). -/
def Obligations.VariantLookup : Prop :=
  (∀ (pid ver : Nat) (v : AdisVersion), fromId pid ver = .ok v ↔ v ∈ Config.variants ∧ v.pid = pid ∧ v.ver = ver) ∧
  (∀ pid ver : Nat, fromId pid ver = .err .unknownDeviceVariant ↔
    ∀ v ∈ Config.variants, ¬(v.pid = pid ∧ v.ver = ver)) ∧
  (∀ (name : String) (v : AdisVersion), fromName name = .ok v ↔ v ∈ Config.variants ∧ v.name = name) ∧
  (∀ name : String, fromName name = .err .unknownDeviceVariant ↔ ∀ v ∈ Config.variants, v.name ≠ name) ∧
  Config.variants.Pairwise (fun a b => ¬(a.pid = b.pid ∧ a.ver = b.ver) ∧ a.name ≠ b.name) ∧
  fromId 16505 1 = .ok Config.requiredVariant ∧ fromName "ADIS16505_1BMLZ" = .ok Config.requiredVariant ∧
  fromId 9999 9 = .err .unknownDeviceVariant ∧ fromName "BOGUS" = .err .unknownDeviceVariant ∧
  fromName "adis16505_1bmlz" = .err .unknownDeviceVariant ∧ fromName "" = .err .unknownDeviceVariant ∧
  (∀ name : String, name.toList.getLast? = some ' ' → fromName name = .err .unknownDeviceVariant)

/-! ## Framing -/

/-- The stuffing encoder is the algorithm of the rule, writes no sentinel, and adds one byte to fewer than 254
(42_framing R102). -/
def Obligations.CobsEncoderFollowsTheRule : Prop :=
  (∀ data : List Byte, cobsEncode data = cobsEncodeLiteral data) ∧
  (∀ data : List Byte, ∀ b ∈ cobsEncode data, b ≠ 0x00#8) ∧
  (∀ data : List Byte, data.length < 254 → (cobsEncode data).length = data.length + 1)

/-- The stuffing decoder is the algorithm of the rule (42_framing R103). -/
def Obligations.CobsDecoderFollowsTheRule : Prop :=
  ∀ enc : List Byte, cobsDecode enc = cobsDecodeLiteral enc

/-- The decoder inverts the encoder on every byte list, of any length (42_framing R102, R103). -/
def Obligations.CobsDecodeInvertsEncode : Prop :=
  ∀ data : List Byte, cobsDecode (cobsEncode data) = .ok data

/-- A frame is a sentinel, the stuffed message and a sentinel; its middle unframes to the message; an empty frame does not
unframe; unframing fails exactly when either of its steps fails (42_framing R104). -/
def Obligations.UnframeInvertsFrame : Prop :=
  (∀ m : Message, frame m = 0x00#8 :: (cobsEncode (serialize m) ++ [0x00#8])) ∧
  (∀ m : Message, m.wf = true → unframe (cobsEncode (serialize m)) = .ok m) ∧
  (∀ m : Message, m.wf = true → 4 ≤ (frame m).length ∧ (frame m).length ≤ 37) ∧
  (∀ f : List Byte, unframe f = .err .serializationError ↔
    cobsDecode f = .err .serializationError ∨
      ∃ bs, cobsDecode f = .ok bs ∧ deserialize bs = .err .serializationError) ∧
  unframe [] = .err .serializationError

/-- The length of every message's frame, within the accumulator and the outbound ceiling (30_encoding R71). -/
def Obligations.FrameLengths : Prop :=
  (∀ m : Message, m.wf = true → (frame m).length = (serialize m).length + 3 ∧
    (serialize m).length + 2 ≤ 36 ∧ (frame m).length ≤ Config.txCap ∧ (frame m).length ≤ Config.accCap) ∧
  (∀ f : ConfigField, (frame (.cfg f)).length = 6) ∧ (∀ v : Word, (frame (.rqr v)).length = 6) ∧
  (∀ (sel : BurstSel) (ws : List Word), ws.length = 10 → (frame (.b16 sel ws)).length = 25) ∧
  (∀ (sel : BurstSel) (ws : List Word), ws.length = 16 → (frame (.b32 sel ws)).length = 37) ∧
  (frame .rst).length = 4 ∧ (∀ t : Byte, (frame (.err t)).length = 5)

/-- FEED keeps the accumulator invariant, writes only below the capacity and only the bytes it takes, and its outcome depends
only on the bytes below the fill index (42_framing R105). -/
def Obligations.FeedKeepsAccumulator : Prop :=
  Accumulator.fresh.wf ∧
  ∀ (a : Accumulator) (input : List Byte), a.wf →
    (a.feed input).2.wf ∧
    (∀ j, Config.accCap ≤ j → (a.feed input).2.buf.read j = a.buf.read j) ∧
    (∀ j, j < a.idx ∨ a.idx + input.length ≤ j → (a.feed input).2.buf.read j = a.buf.read j) ∧
    (∀ b : Accumulator, b.wf → b.pending = a.pending →
      (b.feed input).1 = (a.feed input).1 ∧ (b.feed input).2.pending = (a.feed input).2.pending)

/-- FEED in terms of the bytes received so far (42_framing R107): the frame that ends is those bytes and the input's bytes up to
the sentinel, an overflow empties the accumulator, and part of a frame joins the bytes received. -/
def Obligations.FeedOnPendingBytes : Prop :=
  ∀ a : Accumulator, a.wf →
    a.feed [] = (.consumed, a) ∧
    (∀ pre rest : List Byte, (∀ b ∈ pre, b ≠ 0x00#8) →
      (256 < a.idx + (pre.length + 1) →
        (a.feed (pre ++ 0x00#8 :: rest)).1 = .overFull rest ∧ (a.feed (pre ++ 0x00#8 :: rest)).2.idx = 0) ∧
      (a.idx + (pre.length + 1) ≤ 256 →
        (a.feed (pre ++ 0x00#8 :: rest)).2.idx = 0 ∧
        (∀ m, unframe (a.pending ++ pre) = .ok m → (a.feed (pre ++ 0x00#8 :: rest)).1 = .success m rest) ∧
        (∀ e, unframe (a.pending ++ pre) = .err e → (a.feed (pre ++ 0x00#8 :: rest)).1 = .deserError rest))) ∧
    (∀ input : List Byte, input ≠ [] → (∀ b ∈ input, b ≠ 0x00#8) →
      (256 < a.idx + input.length →
        (a.feed input).1 = .overFull (input.drop (256 - a.idx)) ∧ (a.feed input).2.idx = 0) ∧
      (a.idx + input.length ≤ 256 →
        (a.feed input).1 = .consumed ∧ (a.feed input).2.pending = a.pending ++ input))

/-- Every remainder a FEED returns is a suffix of its input (42_framing R106), and only a full accumulator returns it whole. -/
def Obligations.FeedReturnsASuffix : Prop :=
  ∀ (a : Accumulator) (input : List Byte), a.idx ≤ 256 →
    match (a.feed input).1 with
    | .consumed => True
    | .success _ rest => rest <:+ input ∧ rest ≠ input
    | .overFull rest => rest <:+ input ∧ (rest = input → a.idx = 256)
    | .deserError rest => rest <:+ input ∧ rest ≠ input

/-- DRAIN ends with every byte fed: a larger bound on the number of FEEDs changes nothing (42_framing R108). -/
def Obligations.DrainTerminates : Prop :=
  ∀ (a : Accumulator) (bytes : List Byte) (n : Nat), a.wf → 2 * bytes.length + 1 ≤ n →
    Accumulator.drainFor n a bytes = a.drain bytes ∧ (a.drain bytes).2.2 = [] ∧ (a.drain bytes).2.1.wf

/-- Split invariance: the frames of any list of messages, cut anywhere, give exactly those messages in order
(42_framing R109, for one message and for many). -/
def Obligations.SplitInvariance : Prop :=
  ∀ (ms : List Message) (A B : List Byte), (∀ m ∈ ms, m.wf = true) → A ++ B = ms.flatMap frame →
    (Accumulator.fresh.drain A).1 ++ ((Accumulator.fresh.drain A).2.1.drain B).1 = ms ∧
    ((Accumulator.fresh.drain A).2.1.drain B).2.1.idx = 0

/-- Self-healing: garbage between two frames gives no message and spoils neither, as long as no zero-delimited piece of it is
itself an encoded message (42_framing R107, 90_conflicts C3). -/
def Obligations.GarbageBetweenFramesHeals : Prop :=
  ∀ (m1 m2 : Message) (G : List Byte), m1.wf = true → m2.wf = true →
    (∀ p ∈ pieces G, ∀ m, unframe p ≠ .ok m) →
    (Accumulator.fresh.drain (frame m1 ++ G ++ frame m2)).1 = [m1, m2]

/-! ## Reset, the invariant and the step -/

/-- The state at power-on (10_state R37): the default configuration and every register the spec gives a value. -/
def Obligations.ResetIsPowerOn : Prop :=
  State.reset.cfg.burstEnabled = false ∧
  State.reset.cfg.mscCtrl =
    { burst32 := .disabled, burstSel := .sel0, linGComp := .enabled, pop := .enabled, bandwidth := .wide,
      syncMode := .mode0, syncPol := .neg, drPol := .pos } ∧
  mscEncode State.reset.cfg.mscCtrl = 0x00C1#16 ∧
  State.reset.acc.idx = 0 ∧ State.reset.lastTxn = none ∧ State.reset.busLog = [] ∧ State.reset.drPending = false ∧
  State.reset.rstLine = .high ∧ State.reset.phase = .top ∧ State.reset.resp = [] ∧ State.reset.rx = [] ∧
  State.reset.tx = []

/-- The power-on state meets the invariant. -/
def Obligations.ResetSatisfiesInvariant : Prop := State.reset.Inv

/-- Every step keeps the invariant: the accumulator's form, the outbound ceiling, the bus history and its spacing, what each
phase's data says, the kinds of queued messages, and when the reset line may be low. -/
def Obligations.StepKeepsInvariant : Prop :=
  ∀ s t : State, s.Inv → step s = .next t → t.Inv

/-- The machine never stops: every state has a next state (70_reset_and_hazards R148). -/
def Obligations.StepAlwaysAnswersNext : Prop :=
  ∀ s : State, ∃ t, step s = .next t

/-- When the bytes fed next complete a frame whose message decodes to an instruction, the step is that instruction, run with the
rest of the chunk (43_firmware_loop R113, R114). RST whose clock query fails raises the fault and changes nothing else, the
accumulator included (60_exceptions R131; that R131 wins over R113's list there is the model's choice, log 26). -/
def Obligations.StepRunsDecodedMessage : Prop :=
  (∀ (s : State) (rem rest : List Byte) (m : Message) (a : Accumulator), s.nextTurn = .fw → s.phase = .feed rem →
    s.acc.feed rem = (.success m rest, a) →
    (m ≠ .rst ∨ ClockAnswers s → step s = exec m.instr { s.popTurn with acc := a, phase := .feed rest }) ∧
    (m = .rst → ClockFails s → step s = .next { s.popTurn.popClock with phase := .fault .clockError })) ∧
  (∀ (s : State) (bs rest : List Byte) (i : Instr), s.nextTurn = .fw → s.acc.wf → s.acc.idx = 0 →
    s.phase = .feed (cobsEncode bs ++ 0x00#8 :: rest) → decode (.msg bs) = .ok i →
    (i ≠ .rst ∨ ClockAnswers s →
      ∃ a : Accumulator, a.idx = 0 ∧ step s = exec i { s.popTurn with acc := a, phase := .feed rest }) ∧
    (i = .rst → ClockFails s → step s = .next { s.popTurn.popClock with phase := .fault .clockError }))

/-- When the word a phase sends decodes to an instruction, the step is that instruction; any other word goes through the same
transaction (43_firmware_loop R111, R116, R117, R122, R123). -/
def Obligations.StepRunsDecodedBusWord : Prop :=
  ∀ (s : State) (w : Word), s.nextTurn = .fw → sentWord s.phase = some w →
    (∀ i, decodeBus w = .ok i → step s = exec i s.popTurn) ∧
    (∀ r, decodeBus w = .rejected r → step s = runXfer w s.popTurn)

/-- The moves of the host, the sensor and the clock, each with all it changes (20_memory R52, R54, R55). The model's choices: whose
turn it is (log 1), a sensor answer settled in advance and kept in a queue as 30_encoding R80 writes SENSOR.ANSWER (logs 2 and 24),
and a tick of length 0, which R55 does not have (log 24). -/
def Obligations.StepMakesEnvironmentMoves : Prop :=
  ∀ s : State,
    (∀ bs, s.nextTurn = .hostWrite bs → step s = .next { s.popTurn with rx := s.rx ++ bs }) ∧
    (∀ n, s.nextTurn = .hostRead n → step s = .next { s.popTurn with tx := s.tx.drop (min n s.tx.length) }) ∧
    (s.nextTurn = .drEdge → step s = .next { s.popTurn with drPending := true }) ∧
    (∀ d, s.nextTurn = .tick d → step s = .next { s.popTurn with now := s.now + d }) ∧
    (∀ r, s.nextTurn = .sensorAnswer r → step s = .next { s.popTurn with answers := s.answers ++ [r] })

/-- An opcode-table word placed by the fetch is the instruction the very next step runs. -/
def Obligations.PlacedWordRunsNext : Prop :=
  ∀ (s : State) (nbits w : Nat) (i : Instr), s.acc.wf → decodeTableWord nbits w = some i →
    ∃ t : State, step (s.withFetchWord nbits w) = exec i t ∧ t.cfg = s.cfg ∧ t.lastTxn = s.lastTxn ∧
      t.busLog = s.busLog ∧ t.resp = s.resp ∧ t.rx = s.rx ∧ t.tx = s.tx ∧ t.now = s.now ∧
      t.drPending = s.drPending ∧ t.rstLine = s.rstLine ∧ t.phase.isFault = false

/-! ## The loop's own steps -/

/-- Top: one chunk of at most 64 bytes is taken when bytes are available, else the flush comes next; a failed read gives no
bytes and leaves them (43_firmware_loop R112, 20_memory R50). -/
def Obligations.TopTakesOneChunk : Prop :=
  ∀ s : State, s.nextTurn = .fw → s.phase = .top →
    (s.rx = [] → step s = .next { s.popTurn with phase := .flush }) ∧
    (s.rx ≠ [] → s.popTurn.readOk = true →
      step s = .next { s.popTurn.popRead with rx := s.rx.drop 64, phase := .feed (s.rx.take 64) }) ∧
    (s.rx ≠ [] → s.popTurn.readOk = false → step s = .next { s.popTurn.popRead with phase := .feed [] })

/-- Feed: nothing left or a partial frame ends step 1 of the iteration; an oversized or malformed frame is dropped silently and
its remainder fed again (43_firmware_loop R113). -/
def Obligations.FeedStepOutcomes : Prop :=
  ∀ (s : State) (rem : List Byte) (a : Accumulator), s.nextTurn = .fw → s.phase = .feed rem →
    (rem = [] → step s = .next { s.popTurn with phase := .flush }) ∧
    (rem ≠ [] → s.acc.feed rem = (.consumed, a) → step s = .next { s.popTurn with acc := a, phase := .flush }) ∧
    (∀ rest, s.acc.feed rem = (.overFull rest, a) → step s = .next { s.popTurn with acc := a, phase := .feed rest }) ∧
    (∀ rest, s.acc.feed rem = (.deserError rest, a) → step s = .next { s.popTurn with acc := a, phase := .feed rest })

/-- Flush: each response is framed on its own and offered whole, in order; one that does not fit is dropped and the next still
offered; then no response is left (43_firmware_loop R120). -/
def Obligations.FlushOffersEachResponse : Prop :=
  (∀ (s : State) (oks more : List Bool), s.nextTurn = .fw → s.phase = .flush → s.writeReplies = oks ++ more →
    oks.length = s.resp.length →
    step s = .next { s.popTurn with
      tx := offered s.tx (s.resp.zip oks), resp := [], phase := .burstCheck, writeReplies := more,
      draws := s.draws + 1 + s.resp.length }) ∧
  (∀ s : State, s.nextTurn = .fw → s.phase = .flush → ∃ oks : List Bool, oks.length = s.resp.length ∧
    ∃ t, step s = .next t ∧ t.tx = offered s.tx (s.resp.zip oks) ∧ t.resp = [] ∧ t.phase = .burstCheck)

/-- BurstCheck: a capture begins when bursts are enabled and the edge is latched, with precision and selector from `cfg`; else
the iteration ends; the latch is not cleared here (43_firmware_loop R121). -/
def Obligations.BurstCheckChoosesCapture : Prop :=
  ∀ s : State, s.nextTurn = .fw → s.phase = .burstCheck →
    (s.cfg.burstEnabled = true → s.drPending = true → s.cfg.mscCtrl.burst32 = .enabled →
      step s = .next { s.popTurn with phase := .burstCmd .p32 s.cfg.mscCtrl.burstSel }) ∧
    (s.cfg.burstEnabled = true → s.drPending = true → s.cfg.mscCtrl.burst32 = .disabled →
      step s = .next { s.popTurn with phase := .burstCmd .p16 s.cfg.mscCtrl.burstSel }) ∧
    (s.cfg.burstEnabled = false ∨ s.drPending = false → step s = .next { s.popTurn with phase := .top })

/-! ## The message instructions -/

/-- CFG.BurstEn sets `burst_enabled`, queues its ack and feeds the rest; nothing else changes (43_firmware_loop R115). -/
def Obligations.CfgBurstEnIsLocal : Prop :=
  ∀ (s : State) (rest : List Byte) (v : Bool), s.phase = .feed rest →
    exec (.cfgBurstEn v) s = .next { s with
      cfg := { s.cfg with burstEnabled := v }, resp := s.resp ++ [.cfg (.burstEn v)], phase := .feed rest }

/-- Each of the eight MscCtrl requests, on dispatch: acked at once when it changes nothing, else the handshake's first phase with
exactly that field replaced; nothing else changes (43_firmware_loop R116). Covers CFG.Burst32, CFG.BurstSel, CFG.LinGComp, CFG.Pop,
CFG.Bandwidth, CFG.SyncMode, CFG.SyncPol and CFG.DrPol. -/
def Obligations.CfgMscRequestDispatch : Prop :=
  ∀ (s : State) (rest : List Byte), s.phase = .feed rest →
    (∀ v, exec (.cfgBurst32 v) s = .next (handshakeBegins s (.burst32 v) { s.cfg.mscCtrl with burst32 := v } rest)) ∧
    (∀ v, exec (.cfgBurstSel v) s = .next (handshakeBegins s (.burstSel v) { s.cfg.mscCtrl with burstSel := v } rest)) ∧
    (∀ v, exec (.cfgLinGComp v) s = .next (handshakeBegins s (.linGComp v) { s.cfg.mscCtrl with linGComp := v } rest)) ∧
    (∀ v, exec (.cfgPop v) s = .next (handshakeBegins s (.pop v) { s.cfg.mscCtrl with pop := v } rest)) ∧
    (∀ v, exec (.cfgBandwidth v) s = .next (handshakeBegins s (.bandwidth v) { s.cfg.mscCtrl with bandwidth := v } rest)) ∧
    (∀ v, exec (.cfgSyncMode v) s = .next (handshakeBegins s (.syncMode v) { s.cfg.mscCtrl with syncMode := v } rest)) ∧
    (∀ v, exec (.cfgSyncPol v) s = .next (handshakeBegins s (.syncPol v) { s.cfg.mscCtrl with syncPol := v } rest)) ∧
    (∀ v, exec (.cfgDrPol v) s = .next (handshakeBegins s (.drPol v) { s.cfg.mscCtrl with drPol := v } rest))

/-- RQR: the pair of raw transactions. The host's word is sent unchanged, then FILL, and the response is the second answer;
`cfg` is never written (43_firmware_loop R117). -/
def Obligations.RqrForwardsRawPair : Prop :=
  (∀ (s : State) (rest : List Byte) (v : Word), s.phase = .feed rest →
    exec (.rqr v) s = .next { s with phase := .rqr1 v rest }) ∧
  (∀ (s : State) (rest : List Byte) (v : Word), ReadyToSend s → s.phase = .rqr1 v rest →
    step s = .next (sentState s v (.rqr2 v rest))) ∧
  (∀ (s : State) (rest : List Byte) (v : Word), ReadyToSend s → s.phase = .rqr2 v rest →
    step s = .next { sentState s 0x0000#16 (.feed rest) with resp := s.resp ++ [.rqr (answerTo s 0x0000#16)] }) ∧
  (∀ (s : State) (rest : List Byte) (v : Word), ClockFails s → s.phase = .rqr1 v rest ∨ s.phase = .rqr2 v rest →
    step s = .next { s.popTurn.popClock with phase := .fault .clockError })

/-- RST: the line goes low and the pulse's start is kept; after the pulse width it goes high, `cfg` is the default and RST is
acked; either clock query may fault, and then the line stays as it is (43_firmware_loop R118). -/
def Obligations.RestartPulse : Prop :=
  (∀ (s : State) (rest : List Byte), s.phase = .feed rest → s.clockOk = true →
    exec .rst s = .next { s.popClock with rstLine := .low, phase := .rstLow s.now rest }) ∧
  (∀ (s : State) (rest : List Byte), s.phase = .feed rest → s.clockOk = false →
    exec .rst s = .next { s.popClock with phase := .fault .clockError }) ∧
  (∀ (s : State) (t0 : Nat) (rest : List Byte), s.phase = .rstLow t0 rest → ClockAnswers s →
    (t0 + Config.tRst ≤ s.now → step s = .next { s.popTurn.popClock with
      rstLine := .high, cfg := { burstEnabled := false, mscCtrl := mscDecode 0x00C1#16 },
      resp := s.resp ++ [.rst], phase := .feed rest }) ∧
    (s.now < t0 + Config.tRst → step s = .next s.popTurn.popClock)) ∧
  (∀ (s : State) (t0 : Nat) (rest : List Byte), s.phase = .rstLow t0 rest → ClockFails s →
    step s = .next { s.popTurn.popClock with phase := .fault .clockError })

/-- An inbound B16, B32 or ERR changes the phase and nothing else, whatever it carries (43_firmware_loop R119). -/
def Obligations.InboundBurstAndErrIgnored : Prop :=
  ∀ (s : State) (rest : List Byte), s.phase = .feed rest →
    (∀ sel ws, exec (.b16 sel ws) s = .next { s with phase := .feed rest }) ∧
    (∀ sel ws, exec (.b32 sel ws) s = .next { s with phase := .feed rest }) ∧
    (∀ tag, exec (.err tag) s = .next { s with phase := .feed rest })

/-! ## The bus instructions -/

/-- READ_REQ, WRITE_BYTE, BURST_CMD and FILL each complete as one transaction of their word: logged at `now` with the sensor's
answer, when the clock answers and the minimum interval is over. Before that the step is held and changes nothing, and a failed
clock query raises the fault (43_firmware_loop R111). -/
def Obligations.BusInstructionsTransact : Prop :=
  (encode .burstCmd = .bus 0x6800#16 ∧ encode .fill = .bus 0x0000#16 ∧
    (∀ addr, encode (.readReq addr) = .bus (request addr)) ∧
    (∀ target data, encode (.writeByte target data) = .bus (writeByteWord target data))) ∧
  ∀ (i : Instr) (w : Word) (s : State), encode i = .bus w → s.phase.isFault = false →
    (s.clockOk = true → IntervalOver s →
      ∃ t, exec i s = .next t ∧
        t.busLog = s.busLog ++ [{ time := s.now, sent := w, received := s.popClock.answer w }] ∧
        t.lastTxn = some s.now ∧ t.acc = s.acc ∧ t.rstLine = s.rstLine ∧ t.rx = s.rx ∧ t.now = s.now) ∧
    (s.clockOk = true → ¬IntervalOver s → exec i s = .next s.popClock) ∧
    (s.clockOk = false → exec i s = .next { s.popClock with phase := .fault .clockError })

/-- XFER from every phase that sends a word, listed or not: the fault, the hold, or the transaction (43_firmware_loop R111). -/
def Obligations.XferFromEveryBusPhase : Prop :=
  ∀ (s : State) (w : Word), sentWord s.phase = some w →
    (ClockFails s → step s = .next { s.popTurn.popClock with phase := .fault .clockError }) ∧
    (ClockAnswers s → ¬IntervalOver s → step s = .next s.popTurn.popClock) ∧
    (ReadyToSend s → ∃ t, step s = .next t ∧
      t.busLog = s.busLog ++ [{ time := s.now, sent := w, received := answerTo s w }] ∧ t.lastTxn = some s.now ∧
      t.phase ≠ s.phase)

/-- The handshake's phases: the two write words of the candidate, the settle delay from the second, the read request and FILL;
the last answer commits and acks when it decodes to the candidate and otherwise drops the request silently. The settle phase is
held until its delay is over and faults when the clock fails (43_firmware_loop R116). -/
def Obligations.HandshakePhases : Prop :=
  (∀ (s : State) (f : ConfigField) (cand : FwConfig) (rem : List Byte), ReadyToSend s →
    (s.phase = .cfgW1 f cand rem →
      step s = .next (sentState s (writeLo 0x60#8 (mscEncode cand.mscCtrl)) (.cfgW2 f cand rem))) ∧
    (s.phase = .cfgW2 f cand rem →
      step s = .next (sentState s (writeHi 0x60#8 (mscEncode cand.mscCtrl)) (.cfgSettle f cand s.now rem))) ∧
    (s.phase = .cfgR1 f cand rem → step s = .next (sentState s 0x6000#16 (.cfgR2 f cand rem))) ∧
    (s.phase = .cfgR2 f cand rem → mscDecode (answerTo s 0x0000#16) = cand.mscCtrl →
      step s = .next { sentState s 0x0000#16 (.feed rem) with cfg := cand, resp := s.resp ++ [.cfg f] }) ∧
    (s.phase = .cfgR2 f cand rem → mscDecode (answerTo s 0x0000#16) ≠ cand.mscCtrl →
      step s = .next (sentState s 0x0000#16 (.feed rem)))) ∧
  (∀ (s : State) (f : ConfigField) (cand : FwConfig) (t0 : Nat) (rem : List Byte),
    s.phase = .cfgSettle f cand t0 rem →
    (ClockAnswers s → t0 + Config.tSettle ≤ s.now →
      step s = .next { s.popTurn.popClock with phase := .cfgR1 f cand rem }) ∧
    (ClockAnswers s → s.now < t0 + Config.tSettle → step s = .next s.popTurn.popClock) ∧
    (ClockFails s → step s = .next { s.popTurn.popClock with phase := .fault .clockError }))

/-- The capture's transactions: BURST_CMD, whose answer is discarded, then one FILL a word; the last word's step emits the frame
when it fits and the transport takes it, and clears the latch in any case (43_firmware_loop R122, R123, R124, 20_memory R51; the
transport's reply at that point is a draw, log 4). -/
def Obligations.CaptureTransactions : Prop :=
  ∀ (s : State) (p : Precision) (sel : BurstSel), ReadyToSend s →
    (s.phase = .burstCmd p sel → step s = .next (sentState s 0x6800#16 (.burstWord p sel []))) ∧
    (∀ ws, s.phase = .burstWord p sel ws → ws.length + 1 ≠ frameWords p →
      step s = .next (sentState s 0x0000#16 (.burstWord p sel (ws ++ [answerTo s 0x0000#16])))) ∧
    (∀ ws, s.phase = .burstWord p sel ws → ws.length + 1 = frameWords p →
      ∀ fr, fr = frame (burstMessage p sel (ws ++ [answerTo s 0x0000#16])) →
      ((sentState s 0x0000#16 .top).writeOk = true → s.tx.length + fr.length ≤ 64 →
        step s = .next { (sentState s 0x0000#16 .top).popWrite with tx := s.tx ++ fr, drPending := false }) ∧
      (64 < s.tx.length + fr.length ∨ (sentState s 0x0000#16 .top).writeOk = false →
        step s = .next { (sentState s 0x0000#16 .top).popWrite with drPending := false })) ∧
    frameWords .p16 = 10 ∧ frameWords .p32 = 16

/-! ## Runs -/

/-- A whole handshake: from its first phase, with the clock ticking just enough, eight moves send the two write words, wait the
settle delay, read the register back and commit exactly when the last answer decodes to the candidate
(43_firmware_loop R116, 70_reset_and_hazards R160). -/
def Obligations.HandshakeRuns : Prop :=
  ∀ (s : State) (f : ConfigField) (cand : FwConfig) (rem : List Byte) (r1 r2 r3 r4 : Word),
    s.phase = .cfgW1 f cand rem → IntervalOver s →
    s.turns = [.fw, .tick Config.tMin, .fw, .tick (max Config.tSettle Config.tMin), .fw, .fw, .tick Config.tMin, .fw] →
    s.clockReplies = [true, true, true, true, true] → s.answers = [r1, r2, r3, r4] →
    ∃ t, core.run 8 s = .next t ∧
      t.busLog = s.busLog ++
        [{ time := s.now, sent := writeLo 0x60#8 (mscEncode cand.mscCtrl), received := r1 },
         { time := s.now + Config.tMin, sent := writeHi 0x60#8 (mscEncode cand.mscCtrl), received := r2 },
         { time := s.now + Config.tMin + max Config.tSettle Config.tMin, sent := 0x6000#16, received := r3 },
         { time := s.now + Config.tMin + max Config.tSettle Config.tMin + Config.tMin, sent := 0x0000#16,
           received := r4 }] ∧
      t.phase = .feed rem ∧
      (mscDecode r4 = cand.mscCtrl → t.cfg = cand ∧ t.resp = s.resp ++ [.cfg f]) ∧
      (mscDecode r4 ≠ cand.mscCtrl → t.cfg = s.cfg ∧ t.resp = s.resp) ∧
      t.acc = s.acc ∧ t.tx = s.tx ∧ t.rx = s.rx ∧ t.drPending = s.drPending ∧ t.rstLine = s.rstLine

/-- A whole capture: from its first phase, with the clock ticking the minimum interval between words, the command and one FILL a
word are sent, and the words the sensor answered leave as one B16 or B32 frame (43_firmware_loop R122, R123, R124). -/
def Obligations.CaptureRuns : Prop :=
  ∀ (s : State) (p : Precision) (sel : BurstSel) (r0 : Word) (rs : List Word),
    s.phase = .burstCmd p sel → IntervalOver s → rs.length = frameWords p →
    s.turns = .fw :: rs.flatMap (fun _ => [.tick Config.tMin, .fw]) →
    s.clockReplies = List.replicate (frameWords p + 1) true → s.answers = r0 :: rs → s.writeReplies = [true] →
    s.tx.length + (frame (burstMessage p sel rs)).length ≤ 64 →
    ∃ t, core.run (1 + 2 * frameWords p) s = .next t ∧
      t.busLog = s.busLog ++ { time := s.now, sent := 0x6800#16, received := r0 } :: captureEvents s.now rs ∧
      t.busLog.map (·.sent) = s.busLog.map (·.sent) ++ burstWords p ∧
      t.tx = s.tx ++ frame (burstMessage p sel rs) ∧ t.drPending = false ∧ t.phase = .top ∧
      t.cfg = s.cfg ∧ t.acc = s.acc ∧ t.rx = s.rx ∧ t.resp = s.resp ∧ t.rstLine = s.rstLine

/-- Holds end (70_reset_and_hazards R147). A held transaction goes through once the clock has advanced by the minimum interval
(43_firmware_loop R111). In every run in which the clock advances without bound, the loop is weakly fair and no clock query fails:
whatever the phase, its own step is enabled and taken after finitely many moves, the phase being the same until then; each phase
that may be held is left; and the loop leaves `Top` and comes back to it, over and over. The starting state meets the invariant.
How a run draws its environment's moves is the model's choice (log 27). -/
def Obligations.HoldsEndAndLoopReturnsToTop : Prop :=
  (∀ (s : State) (w : Word) (t0 : Nat), sentWord s.phase = some w → s.lastTxn = some t0 → t0 ≤ s.now →
    s.turns = [.tick Config.tMin, .fw] → s.clockReplies = [true] →
    ∃ t r, core.run 2 s = .next t ∧
      t.busLog = s.busLog ++ [{ time := s.now + Config.tMin, sent := w, received := r }] ∧
      t.lastTxn = some (s.now + Config.tMin)) ∧
  (∀ (env : Nat → Draws) (r : Nat → State), FairRun env r → ∀ n,
    (∃ m, n ≤ m ∧ (env m).turn = .fw ∧ FwEnabled (r m) ∧ ∀ k, n ≤ k → k ≤ m → (r k).phase = (r n).phase) ∧
    (mayBeHeld (r n).phase = true → ∃ m, n < m ∧ (r m).phase ≠ (r n).phase) ∧
    (∃ m k, n ≤ m ∧ m < k ∧ (r m).phase ≠ .top ∧ (r k).phase = .top))

/-! ## Faults and the whole machine -/

/-- The fault is raised only by a failed clock query, by the loop, in a phase that queries the clock, and from `Feed` only when the
FEED decodes RST, whose dispatch queries it. The faulting step changes nothing but the phase (60_exceptions R131), beside the
model's own turn and clock draw (logs 1, 3); that the accumulator stays as it was before that FEED is R131 followed where R113
lists a write (log 26). -/
def Obligations.ClockFaultChangesOnlyThePhase : Prop :=
  ∀ (s t : State) (k : ErrorKind), step s = .next t → s.phase.isFault = false → t.phase = .fault k →
    k = .clockError ∧ ClockFails s ∧ queriesClock s.phase = true ∧
    (∀ rem, s.phase = .feed rem → ∃ rest a, s.acc.feed rem = (.success .rst rest, a)) ∧
    t = { s.popTurn.popClock with phase := .fault .clockError } ∧
    t.cfg = s.cfg ∧ t.acc = s.acc ∧ t.lastTxn = s.lastTxn ∧ t.busLog = s.busLog ∧ t.drPending = s.drPending ∧
    t.rstLine = s.rstLine ∧ t.resp = s.resp ∧ t.rx = s.rx ∧ t.tx = s.tx ∧ t.now = s.now

/-- In `Fault(kind)` no step of the loop is enabled and no move leaves it; the host, the sensor and the clock keep their moves,
and no instruction runs (43_firmware_loop R125). -/
def Obligations.FaultIsSticky : Prop :=
  ∀ (s : State) (k : ErrorKind), s.phase = .fault k →
    (s.nextTurn = .fw → step s = .next s.popTurn) ∧
    (∀ t, step s = .next t → t.phase = .fault k ∧ t.cfg = s.cfg ∧ t.acc = s.acc ∧ t.lastTxn = s.lastTxn ∧
      t.busLog = s.busLog ∧ t.rstLine = s.rstLine ∧ t.resp = s.resp) ∧
    (∀ i : Instr, exec i s = .fault (.loopFaulted k))

/-- The handshake guarantee: a step that changes `cfg.msc_ctrl` is the end of a restart, which sets the default, or a commit of
the decode of the answer to FILL that follows the read request of the control register, sent at least the settle delay after the
second write word of the same value (43_firmware_loop R126). -/
def Obligations.CommittedConfigurationIsVerified : Prop :=
  ∀ s t : State, s.Inv → step s = .next t → t.cfg.mscCtrl ≠ s.cfg.mscCtrl →
    (∃ t0 rem, s.phase = .rstLow t0 rem ∧ t.cfg.mscCtrl = mscDecode 0x00C1#16) ∨
    (∃ pre e1 e2 e3, t.busLog = pre ++ [e1, e2, e3] ∧
      e1.sent = writeHi 0x60#8 (mscEncode t.cfg.mscCtrl) ∧ e2.sent = request 0x60#8 ∧ e3.sent = 0x0000#16 ∧
      e1.time + Config.tSettle ≤ e2.time ∧ mscDecode e3.received = t.cfg.mscCtrl)

/-- `cfg.burst_enabled` is written by the dispatch of CFG.BurstEn and by restart, and by nothing else (10_state R23). -/
def Obligations.BurstEnabledWriters : Prop :=
  ∀ s t : State, s.Inv → step s = .next t → t.cfg.burstEnabled ≠ s.cfg.burstEnabled →
    (∃ rem rest v a, s.phase = .feed rem ∧ s.acc.feed rem = (.success (.cfg (.burstEn v)) rest, a) ∧
      t.cfg.burstEnabled = v) ∨
    (∃ t0 rem, s.phase = .rstLow t0 rem ∧ t.cfg.burstEnabled = false)

/-- The data-ready latch is set only by the sensor's edge and cleared only by the last word of a capture
(60_exceptions R133, 10_state R29). -/
def Obligations.DataReadyLatchWriters : Prop :=
  ∀ s t : State, step s = .next t →
    (s.drPending = false → t.drPending = true → s.nextTurn = .drEdge) ∧
    (s.drPending = true → t.drPending = false →
      ∃ p sel ws, s.phase = .burstWord p sel ws ∧ ws.length + 1 = frameWords p ∧ t.phase = .top)

/-- The reset line goes low only by the dispatch of RST and high only at the end of its pulse, at least the pulse width later
(10_state R30, 43_firmware_loop R118). -/
def Obligations.ResetLineWriters : Prop :=
  ∀ s t : State, step s = .next t → t.rstLine ≠ s.rstLine →
    (t.rstLine = .low ∧ t.phase.isFault = false ∧
      ∃ rem rest a, s.phase = .feed rem ∧ s.acc.feed rem = (.success .rst rest, a) ∧ t.phase = .rstLow s.now rest) ∨
    (t.rstLine = .high ∧ ∃ t0 rem, s.phase = .rstLow t0 rem ∧ t0 + Config.tRst ≤ s.now ∧ t.phase = .feed rem)

/-- The minimum interval: a step makes at most one transaction, of the word its phase sends, at least the interval after the last
one; so any two consecutive entries of the history of any run are that far apart (70_reset_and_hazards R149). -/
def Obligations.BusTransactionsAreSpaced : Prop :=
  (∀ s t : State, step s = .next t →
    (t.busLog = s.busLog ∧ t.lastTxn = s.lastTxn) ∨
    (∃ w r, sentWord s.phase = some w ∧ t.busLog = s.busLog ++ [{ time := s.now, sent := w, received := r }] ∧
      t.lastTxn = some s.now ∧ ∀ t0, s.lastTxn = some t0 → t0 + Config.tMin ≤ s.now)) ∧
  (∀ (s t : State) (n : Nat), s.Inv → core.run n s = .next t →
    s.busLog <+: t.busLog ∧ t.busLog.IsChain (fun e1 e2 => e1.time + Config.tMin ≤ e2.time))

/-- The settle delay: the read request of a handshake is sent at least the settle delay, and the minimum interval, after its
second write word. RQR's second word waits for the minimum interval only (70_reset_and_hazards R150). -/
def Obligations.SettleBeforeReadBack : Prop :=
  (∀ (s t : State) (f : ConfigField) (cand : FwConfig) (rem : List Byte), s.Inv → s.phase = .cfgR1 f cand rem →
    step s = .next t → t.busLog ≠ s.busLog →
    ∃ pre e1 e2, t.busLog = pre ++ [e1, e2] ∧ e1.sent = writeHi 0x60#8 (mscEncode cand.mscCtrl) ∧
      e2.sent = 0x6000#16 ∧ e1.time + max Config.tSettle Config.tMin ≤ e2.time) ∧
  (∀ (s : State) (v : Word) (rem : List Byte), ReadyToSend s → s.phase = .rqr1 v rem ∨ s.phase = .rqr2 v rem →
    ∃ t, step s = .next t ∧ t.busLog ≠ s.busLog)

/-- Every ack equals its request and an RQR response carries the second answer: a step queues at most one message, and it is the
request of the handshake that commits, the dispatched request itself, RST at the end of the pulse, or RQR of the last answer
(43_firmware_loop R115 to R118, R127). -/
def Obligations.AcksEqualRequests : Prop :=
  ∀ s t : State, step s = .next t →
    t.resp = s.resp ∨ (s.phase = .flush ∧ t.resp = []) ∨
    (∃ m, t.resp = s.resp ++ [m] ∧
      ((∃ rem rest a, s.phase = .feed rem ∧ s.acc.feed rem = (.success m rest, a)) ∨
       (∃ f cand rem, s.phase = .cfgR2 f cand rem ∧ m = .cfg f ∧ t.cfg = cand) ∨
       (∃ t0 rem, s.phase = .rstLow t0 rem ∧ m = .rst) ∨
       (∃ v rem e, s.phase = .rqr2 v rem ∧ t.busLog = s.busLog ++ [e] ∧ m = .rqr e.received)))

/-- `tx` grows by whole frames, of queued responses at the flush or, at the last word of a capture, of the words captured with the
answer just logged, never past its ceiling, and shrinks only from its head by the host's read (10_state R34, 20_memory R51, R52). -/
def Obligations.OutboundHoldsWholeFrames : Prop :=
  ∀ s t : State, step s = .next t →
    (s.tx.length ≤ 64 → t.tx.length ≤ 64) ∧
    ((∃ n, s.nextTurn = .hostRead n ∧ t.tx = s.tx.drop n) ∨
     (∃ ms : List Message, t.tx = s.tx ++ ms.flatMap frame ∧
       (ms = [] ∨ (s.phase = .flush ∧ ms.Sublist s.resp) ∨
        (∃ p sel ws e, s.phase = .burstWord p sel ws ∧ ws.length + 1 = frameWords p ∧ t.busLog = s.busLog ++ [e] ∧
          ms = [burstMessage p sel (ws ++ [e.received])]))))

/-- `rx` is read from its head, at most 64 bytes and only at Top, and written only at its tail, only by the host; only the clock
changes `now`, and it never goes back (10_state R33, 20_memory R50, R52, R55, 00_scope R13). -/
def Obligations.InboundIsFifoAndTimeOnlyTicks : Prop :=
  ∀ s t : State, step s = .next t →
    (t.rx = s.rx ∨ (∃ bs, s.nextTurn = .hostWrite bs ∧ t.rx = s.rx ++ bs) ∨
      (s.nextTurn = .fw ∧ s.phase = .top ∧ ∃ chunk, t.phase = .feed chunk ∧ s.rx = chunk ++ t.rx ∧
        chunk.length ≤ 64)) ∧
    (t.now = s.now ∨ ∃ d, s.nextTurn = .tick d ∧ t.now = s.now + d)

/-- The frame of every instruction: no byte of the accumulator, no inbound byte and no clock value changes; a message changes no
bus history and no `tx`, and only what its rule names of the rest; a bus word leaves the reset line, `cfg` outside the commit, and
`tx` and the latch outside a capture's last word (43_firmware_loop R111 to R124). Covers all eighteen instructions. -/
def Obligations.InstructionFrame : Prop :=
  ∀ (i : Instr) (s t : State), exec i s = .next t →
    (∀ a, t.acc.buf.read a = s.acc.buf.read a) ∧ t.acc.idx = s.acc.idx ∧ t.rx = s.rx ∧ t.now = s.now ∧
    t.turns = s.turns ∧
    (∀ bs, encode i = .msg bs →
      t.busLog = s.busLog ∧ t.lastTxn = s.lastTxn ∧ t.tx = s.tx ∧ t.drPending = s.drPending ∧
      t.cfg.mscCtrl = s.cfg.mscCtrl ∧ ((∀ v, i ≠ .cfgBurstEn v) → t.cfg = s.cfg) ∧
      (i ≠ .rst → t.rstLine = s.rstLine) ∧
      (t.resp = s.resp ∨ ∃ f, i = (Message.cfg f).instr ∧ t.resp = s.resp ++ [.cfg f])) ∧
    (∀ w, encode i = .bus w →
      t.rstLine = s.rstLine ∧ (t.cfg ≠ s.cfg → ∃ f cand rem, s.phase = .cfgR2 f cand rem) ∧
      (t.tx ≠ s.tx ∨ t.drPending ≠ s.drPending → ∃ p sel ws, s.phase = .burstWord p sel ws ∧
        ws.length + 1 = frameWords p) ∧
      (t.resp ≠ s.resp → (∃ f cand rem, s.phase = .cfgR2 f cand rem) ∨ ∃ v rem, s.phase = .rqr2 v rem))

/-- The outbound arithmetic: a B32 frame never fits behind another, and a B16 frame fits behind one B32 frame with 62 of 64 bytes
used (70_reset_and_hazards R157). TxWrite answers true exactly when the transport takes the bytes and they fit, and then all of
them are appended; when it answers false `tx` is unchanged (20_memory R51; the transport's reply is a draw, log 4). -/
def Obligations.OutboundOverflow : Prop :=
  (∀ (sel sel' : BurstSel) (ws ws' : List Word), ws.length = 16 → ws'.length = 16 →
    txFits (frame (.b32 sel ws)) (frame (.b32 sel' ws')).length = false) ∧
  (∀ (sel sel' : BurstSel) (ws ws' : List Word), ws.length = 16 → ws'.length = 10 →
    txFits (frame (.b32 sel ws)) (frame (.b16 sel' ws')).length = true ∧
    (frame (.b32 sel ws) ++ frame (.b16 sel' ws')).length = 62) ∧
  (∀ (s : State) (bs : List Byte),
    ((s.txWrite bs).1 = true ↔ s.writeOk = true ∧ s.tx.length + bs.length ≤ 64) ∧
    ((s.txWrite bs).1 = true → (s.txWrite bs).2.tx = s.tx ++ bs) ∧
    ((s.txWrite bs).1 = false → (s.txWrite bs).2.tx = s.tx))
end

