-- ==== Sys2Proof/Laws/Codec.lean ====
section
/-! SUPPORT. Bytes and words, the payload of a message, and what every instruction is: a message's, or a bus word's. -/

namespace Sys2Proof

/-- A word is the word of its two bytes. -/
@[simp] theorem wordOf_loByte_hiByte (w : Word) : wordOf (loByte w) (hiByte w) = w := by
  unfold wordOf loByte hiByte
  ext i hi
  have : i < 16 := hi
  interval_cases i <;> simp [← BitVec.getLsbD_eq_getElem]

@[simp] theorem loByte_wordOf (lo hi : Byte) : loByte (wordOf lo hi) = lo := by
  unfold wordOf loByte
  ext i h
  interval_cases i <;> simp [← BitVec.getLsbD_eq_getElem]

@[simp] theorem hiByte_wordOf (lo hi : Byte) : hiByte (wordOf lo hi) = hi := by
  unfold wordOf hiByte
  ext i h
  interval_cases i <;> simp [← BitVec.getLsbD_eq_getElem]

/-- The words read back from a payload are the words written. -/
theorem bytesWords_flatMap (ws : List Word) : bytesWords (ws.flatMap wordBytes) = ws := by
  induction ws with
  | nil => rfl
  | cons w ws ih => simpa [wordBytes, bytesWords] using ih

/-- A payload of an even length is the bytes of its words. -/
theorem flatMap_bytesWords {n : Nat} {bs : List Byte} (h : bs.length = 2 * n) :
    (bytesWords bs).flatMap wordBytes = bs ∧ (bytesWords bs).length = n := by
  induction n generalizing bs with
  | zero =>
    have : bs = [] := by simpa using h
    subst this
    exact ⟨rfl, rfl⟩
  | succ n ih =>
    match bs, h with
    | lo :: hi :: rest, h =>
      obtain ⟨h1, h2⟩ := ih (bs := rest) (by simp at h; omega)
      simp [bytesWords, wordBytes, h1, h2]
    | [x], h => simp at h; omega
    | [], h => simp at h

theorem length_flatMap_wordBytes (ws : List Word) : (ws.flatMap wordBytes).length = 2 * ws.length := by
  induction ws with
  | nil => rfl
  | cons w ws ih => simp only [List.flatMap_cons, List.length_append, ih, wordBytes, List.length_cons,
      List.length_nil]; omega

/-- The instruction of a message encodes to its bytes. -/
theorem encode_instr (m : Message) : encode m.instr = .msg (serialize m) := by
  cases m with
  | cfg f => cases f <;> rfl
  | rqr _ => rfl
  | b16 _ _ => rfl
  | b32 _ _ => rfl
  | rst => rfl
  | err _ => rfl

theorem instr_wf (m : Message) : m.instr.wf = m.wf := by
  cases m with
  | cfg f => cases f <;> rfl
  | rqr _ => rfl
  | b16 _ _ => rfl
  | b32 _ _ => rfl
  | rst => rfl
  | err _ => rfl

/-- Every instruction is a message's or encodes to a bus word. -/
theorem Instr.message_or_bus (i : Instr) : (∃ m : Message, i = m.instr) ∨ ∃ w, encode i = .bus w := by
  cases i with
  | burstCmd => exact .inr ⟨_, rfl⟩
  | fill => exact .inr ⟨_, rfl⟩
  | readReq _ => exact .inr ⟨_, rfl⟩
  | writeByte _ _ => exact .inr ⟨_, rfl⟩
  | cfgBurstEn v => exact .inl ⟨.cfg (.burstEn v), rfl⟩
  | cfgBurst32 v => exact .inl ⟨.cfg (.burst32 v), rfl⟩
  | cfgBurstSel v => exact .inl ⟨.cfg (.burstSel v), rfl⟩
  | cfgLinGComp v => exact .inl ⟨.cfg (.linGComp v), rfl⟩
  | cfgPop v => exact .inl ⟨.cfg (.pop v), rfl⟩
  | cfgBandwidth v => exact .inl ⟨.cfg (.bandwidth v), rfl⟩
  | cfgSyncMode v => exact .inl ⟨.cfg (.syncMode v), rfl⟩
  | cfgSyncPol v => exact .inl ⟨.cfg (.syncPol v), rfl⟩
  | cfgDrPol v => exact .inl ⟨.cfg (.drPol v), rfl⟩
  | rqr v => exact .inl ⟨.rqr v, rfl⟩
  | b16 sel ws => exact .inl ⟨.b16 sel ws, rfl⟩
  | b32 sel ws => exact .inl ⟨.b32 sel ws, rfl⟩
  | rst => exact .inl ⟨.rst, rfl⟩
  | err tag => exact .inl ⟨.err tag, rfl⟩

/-- An instruction that encodes to a bus word is the transaction of that word. -/
theorem Machine.exec_of_encode_bus {i : Instr} {w : Word} (h : encode i = .bus w) (s : Machine.State) :
    Machine.exec i s = Machine.runXfer w s := by
  cases i <;> simp only [encode, Code.bus.injEq, reduceCtorEq] at h <;> subst h <;> rfl

end Sys2Proof
end

