-- ==== Sys2Proof/Laws/Memory.lean ====
section
/-! SUPPORT. The laws of the accumulator's memory: every operation keeps the canonical form, a read after a write, and what a
write leaves alone. -/

namespace Sys2Proof.Machine

@[simp] theorem Memory.read_nil (a : Nat) : Memory.read [] a = Memory.unlisted := rfl

theorem Memory.read_cons (k : Nat) (v : Byte) (m : Memory) (a : Nat) :
    Memory.read ((k, v) :: m) a = if k = a then v else Memory.read m a := rfl

theorem Memory.mem_entry {a : Nat} {v : Byte} {c : Host.Cell} (h : c ∈ Memory.entry a v) :
    c = (a, v) ∧ v ≠ Memory.unlisted := by
  unfold Memory.entry at h
  split at h
  · cases h
  · exact ⟨by simpa using h, ‹_›⟩

theorem Memory.read_entry_append (a : Nat) (v : Byte) (m : Memory) (b : Nat) :
    Memory.read (Memory.entry a v ++ m) b =
      if v ≠ Memory.unlisted ∧ a = b then v else Memory.read m b := by
  unfold Memory.entry
  by_cases hv : v = Memory.unlisted
  · simp [hv]
  · simp [hv, Memory.read_cons]

/-- An entry written comes from the old memory or is the one written. -/
theorem Memory.mem_write {m : Memory} {a : Nat} {v : Byte} {c : Host.Cell} (h : c ∈ m.write a v) :
    c ∈ m ∨ (c = (a, v) ∧ v ≠ Memory.unlisted) := by
  induction m with
  | nil => exact .inr (Memory.mem_entry h)
  | cons x m ih =>
    obtain ⟨k, x⟩ := x
    simp only [Memory.write] at h
    split at h
    · rcases List.mem_append.1 h with h | h
      · exact .inr (Memory.mem_entry h)
      · exact .inl h
    · split at h
      · rcases List.mem_append.1 h with h | h
        · exact .inr (Memory.mem_entry h)
        · exact .inl (List.mem_cons_of_mem _ h)
      · rcases List.mem_cons.1 h with h | h
        · exact .inl (h ▸ List.mem_cons_self)
        · rcases ih h with h | h
          · exact .inl (List.mem_cons_of_mem _ h)
          · exact .inr h

theorem Memory.wf_nil : Memory.wf [] := ⟨List.Pairwise.nil, by simp⟩

theorem Memory.wf_cons {k : Nat} {x : Byte} {m : Memory} :
    Memory.wf ((k, x) :: m) ↔ (∀ c ∈ m, k < c.1) ∧ x ≠ Memory.unlisted ∧ Memory.wf m := by
  simp only [Memory.wf, List.pairwise_cons, List.mem_cons, forall_eq_or_imp]
  tauto

theorem Memory.wf_entry_append {a : Nat} {v : Byte} {m : Memory} (hm : m.wf) (ha : ∀ c ∈ m, a < c.1) :
    Memory.wf (Memory.entry a v ++ m) := by
  unfold Memory.entry
  split
  · exact hm
  · exact Memory.wf_cons.2 ⟨ha, ‹_›, hm⟩

/-- Writing a byte keeps the canonical form. -/
theorem Memory.write_wf {m : Memory} (hm : m.wf) (a : Nat) (v : Byte) : (m.write a v).wf := by
  induction m with
  | nil => simpa [Memory.write] using Memory.wf_entry_append (a := a) (v := v) Memory.wf_nil (by simp)
  | cons x m ih =>
    obtain ⟨k, x⟩ := x
    obtain ⟨hk, hx, hm'⟩ := Memory.wf_cons.1 hm
    simp only [Memory.write]
    split
    · refine Memory.wf_entry_append hm ?_
      intro c hc
      rcases List.mem_cons.1 hc with h | h
      · simpa [h]
      · exact lt_trans ‹_› (hk c h)
    · split
      · subst a
        exact Memory.wf_entry_append hm' hk
      · refine Memory.wf_cons.2 ⟨?_, hx, ih hm'⟩
        intro c hc
        rcases Memory.mem_write hc with h | ⟨h, -⟩
        · exact hk c h
        · simp only [h]; omega

/-- A byte not in the keys reads as unlisted. -/
theorem Memory.read_of_not_listed {m : Memory} {a : Nat} (h : ∀ c ∈ m, c.1 ≠ a) :
    m.read a = Memory.unlisted := by
  induction m with
  | nil => rfl
  | cons x m ih =>
    obtain ⟨k, x⟩ := x
    have hk : k ≠ a := h (k, x) List.mem_cons_self
    rw [Memory.read_cons, if_neg hk]
    exact ih fun c hc => h c (List.mem_cons_of_mem _ hc)

/-- A read after a write: the byte written at its index, every other byte as before. -/
theorem Memory.read_write {m : Memory} (hm : m.wf) (a : Nat) (v : Byte) (b : Nat) :
    (m.write a v).read b = if b = a then v else m.read b := by
  induction m with
  | nil =>
    have h := Memory.read_entry_append a v [] b
    simp only [List.append_nil] at h
    simp only [Memory.write, h, Memory.read_nil]
    by_cases hb : b = a
    · subst b
      by_cases hv : v = Memory.unlisted
      · rw [if_neg (fun h => h.1 hv), if_pos rfl, hv]
      · rw [if_pos ⟨hv, rfl⟩, if_pos rfl]
    · rw [if_neg (fun h => hb h.2.symm), if_neg hb]
  | cons x m ih =>
    obtain ⟨k, x⟩ := x
    obtain ⟨hk, hx, hm'⟩ := Memory.wf_cons.1 hm
    simp only [Memory.write]
    split
    · rw [Memory.read_entry_append]
      by_cases hb : b = a
      · subst b
        have : Memory.read ((k, x) :: m) a = Memory.unlisted := by
          refine Memory.read_of_not_listed fun c hc => ?_
          rcases List.mem_cons.1 hc with h | h
          · simp only [h]; omega
          · have := hk c h; omega
        by_cases hv : v = Memory.unlisted
        · rw [if_neg (fun h => h.1 hv), if_pos rfl, this, hv]
        · rw [if_pos ⟨hv, rfl⟩, if_pos rfl]
      · rw [if_neg (by rintro ⟨-, h⟩; exact hb h.symm), if_neg hb]
    · split
      · subst a
        rw [Memory.read_entry_append]
        by_cases hb : b = k
        · subst b
          have : Memory.read m k = Memory.unlisted :=
            Memory.read_of_not_listed fun c hc => (hk c hc).ne'
          by_cases hv : v = Memory.unlisted
          · rw [if_neg (fun h => h.1 hv), if_pos rfl, this, hv]
          · rw [if_pos ⟨hv, rfl⟩, if_pos rfl]
        · rw [if_neg (by rintro ⟨-, h⟩; exact hb h.symm), if_neg hb, Memory.read_cons,
            if_neg (fun h => hb h.symm)]
      · rw [Memory.read_cons, Memory.read_cons, ih hm']
        by_cases hkb : k = b
        · subst b
          rw [if_pos rfl, if_pos rfl, if_neg (fun h => ‹¬a = k› h.symm)]
        · rw [if_neg hkb, if_neg hkb]

/-- Writing bytes keeps the canonical form. -/
theorem Memory.writeBytes_wf {m : Memory} (hm : m.wf) (i : Nat) (bs : List Byte) : (m.writeBytes i bs).wf := by
  induction bs generalizing m i with
  | nil => exact hm
  | cons b bs ih => exact ih (Memory.write_wf hm i b) (i + 1)

/-- Every entry after a write of bytes is an old one or lies among the bytes written. -/
theorem Memory.mem_writeBytes {m : Memory} {i : Nat} {bs : List Byte} {c : Host.Cell}
    (h : c ∈ m.writeBytes i bs) : c ∈ m ∨ (i ≤ c.1 ∧ c.1 < i + bs.length) := by
  induction bs generalizing m i with
  | nil => exact .inl h
  | cons b bs ih =>
    rcases ih h with h | h
    · rcases Memory.mem_write h with h | ⟨h, -⟩
      · exact .inl h
      · exact .inr (by simp [h])
    · exact .inr (by simp only [List.length_cons]; omega)

/-- A read after a write of bytes. -/
theorem Memory.read_writeBytes {m : Memory} (hm : m.wf) (i : Nat) (bs : List Byte) (a : Nat) :
    (m.writeBytes i bs).read a = if i ≤ a ∧ a < i + bs.length then bs.getD (a - i) Memory.unlisted else m.read a := by
  induction bs generalizing m i with
  | nil => simp [Memory.writeBytes]
  | cons b bs ih =>
    rw [Memory.writeBytes, ih (Memory.write_wf hm i b), Memory.read_write hm]
    by_cases h : a = i
    · subst a
      simp
    · by_cases h1 : i + 1 ≤ a ∧ a < i + 1 + bs.length
      · obtain ⟨k, rfl⟩ : ∃ k, a = i + 1 + k := ⟨a - (i + 1), by omega⟩
        rw [if_pos h1, if_pos (by simp only [List.length_cons]; omega)]
        rw [show i + 1 + k - (i + 1) = k by omega, show i + 1 + k - i = k + 1 by omega]
        rfl
      · rw [if_neg h1, if_neg h, if_neg (by simp only [List.length_cons]; omega)]

@[simp] theorem Memory.readBytes_length (m : Memory) (i n : Nat) : (m.readBytes i n).length = n := by
  induction n generalizing i with
  | zero => rfl
  | succ n ih => simp [Memory.readBytes, ih]

theorem Memory.readBytes_congr {m m' : Memory} {i n : Nat} (h : ∀ j, i ≤ j → j < i + n → m.read j = m'.read j) :
    m.readBytes i n = m'.readBytes i n := by
  induction n generalizing i with
  | zero => rfl
  | succ n ih =>
    simp only [Memory.readBytes]
    rw [h i le_rfl (by omega), ih fun j h1 h2 => h j (by omega) (by omega)]

theorem Memory.readBytes_add (m : Memory) (i n k : Nat) :
    m.readBytes i (n + k) = m.readBytes i n ++ m.readBytes (i + n) k := by
  induction n generalizing i with
  | zero => simp [Memory.readBytes]
  | succ n ih =>
    rw [show n + 1 + k = (n + k) + 1 by omega]
    simp only [Memory.readBytes, List.cons_append]
    rw [ih, show i + 1 + n = i + (n + 1) by omega]

/-- Bytes written are read back. -/
theorem Memory.readBytes_writeBytes {m : Memory} (hm : m.wf) (i : Nat) (bs : List Byte) :
    (m.writeBytes i bs).readBytes i bs.length = bs := by
  induction bs generalizing m i with
  | nil => rfl
  | cons b bs ih =>
    simp only [List.length_cons, Memory.readBytes]
    rw [Memory.writeBytes, ih (Memory.write_wf hm i b), Memory.read_writeBytes (Memory.write_wf hm i b),
      Memory.read_write hm]
    simp

/-- Bytes read are the reads of each index. -/
theorem Memory.readBytes_eq (m : Memory) (i n : Nat) :
    m.readBytes i n = (List.range n).map fun j => m.read (i + j) := by
  induction n generalizing i with
  | zero => rfl
  | succ n ih =>
    rw [Memory.readBytes, ih, List.range_succ_eq_map]
    simp only [List.map_cons, List.map_map, Nat.add_zero, List.cons.injEq, true_and]
    refine List.map_congr_left fun j _ => ?_
    show m.read (i + 1 + j) = m.read (i + (j + 1))
    rw [show i + 1 + j = i + (j + 1) by omega]

/-- What is read from the start after bytes are written at `i`: the `i` bytes before them, then the bytes. -/
theorem Memory.readBytes_zero_writeBytes {m : Memory} (hm : m.wf) (i : Nat) (bs more : List Byte) :
    (m.writeBytes i (bs ++ more)).readBytes 0 (i + bs.length) = m.readBytes 0 i ++ bs := by
  rw [Memory.readBytes_eq, Memory.readBytes_eq]
  refine List.ext_getElem (by simp) fun j h1 h2 => ?_
  simp only [List.length_map, List.length_range] at h1
  rw [List.getElem_map, List.getElem_range, Nat.zero_add, Memory.read_writeBytes hm]
  by_cases hj : j < i
  · rw [if_neg (by omega), List.getElem_append_left (by simpa using hj)]
    simp
  · rw [if_pos ⟨by omega, by simp only [List.length_append]; omega⟩, List.getElem_append_right (by simpa using hj)]
    simp only [List.length_map, List.length_range]
    rw [List.getD_eq_getElem?_getD, List.getElem?_append_left (by omega), List.getElem?_eq_getElem (by omega)]
    rfl

/-- The memory at reset is in canonical form. -/
theorem reset_memory_wf : State.reset.acc.buf.wf := Memory.wf_nil

end Sys2Proof.Machine
end

