-- ==== Sys2Proof/Laws/Framing.lean ====
section
/-! SUPPORT. What the framing operations can do: the first sentinel of an input, and one FEED. -/

namespace Sys2Proof.Machine

/-- An input with a sentinel is the bytes before it, the sentinel and the bytes after it. -/
theorem splitSentinel_some {bs pre rest : List Byte} (h : splitSentinel bs = some (pre, rest)) :
    bs = pre ++ Config.sentinel :: rest ∧ ∀ b ∈ pre, b ≠ Config.sentinel := by
  induction bs generalizing pre with
  | nil => cases h
  | cons b bs ih =>
    simp only [splitSentinel] at h
    split at h
    · cases h
      exact ⟨by simp_all, by simp⟩
    · split at h
      · cases h
        obtain ⟨h1, h2⟩ := ih ‹_›
        exact ⟨by rw [h1]; rfl, by simpa using ⟨‹_›, h2⟩⟩
      · cases h

/-- An input with no first sentinel holds none. -/
theorem splitSentinel_none {bs : List Byte} (h : splitSentinel bs = none) : ∀ b ∈ bs, b ≠ Config.sentinel := by
  induction bs with
  | nil => simp
  | cons b bs ih =>
    simp only [splitSentinel] at h
    split at h
    · cases h
    · split at h
      · cases h
      · simpa using ⟨‹_›, ih ‹_›⟩

/-- The first sentinel is found where it stands. -/
theorem splitSentinel_append {pre : List Byte} (h : ∀ b ∈ pre, b ≠ Config.sentinel) (rest : List Byte) :
    splitSentinel (pre ++ Config.sentinel :: rest) = some (pre, rest) := by
  induction pre with
  | nil => simp [splitSentinel]
  | cons b pre ih =>
    have hb : b ≠ Config.sentinel := h b List.mem_cons_self
    simp [splitSentinel, hb, ih fun c hc => h c (List.mem_cons_of_mem _ hc)]

theorem splitSentinel_eq_none {bs : List Byte} (h : ∀ b ∈ bs, b ≠ Config.sentinel) : splitSentinel bs = none := by
  induction bs with
  | nil => rfl
  | cons b bs ih =>
    have hb : b ≠ Config.sentinel := h b List.mem_cons_self
    simp [splitSentinel, hb, ih fun c hc => h c (List.mem_cons_of_mem _ hc)]

theorem Accumulator.feed_nil (a : Accumulator) : a.feed [] = (.consumed, a) := rfl

theorem Accumulator.feed_some {a : Accumulator} {input pre rest : List Byte}
    (h : splitSentinel input = some (pre, rest)) : a.feed input = a.feedFrame pre rest := by
  cases input with
  | nil => cases h
  | cons b bs => simp [Accumulator.feed, h]

theorem Accumulator.feed_none {a : Accumulator} {input : List Byte} (hne : input ≠ [])
    (h : splitSentinel input = none) : a.feed input = a.feedPart input := by
  cases input with
  | nil => exact absurd rfl hne
  | cons b bs => simp [Accumulator.feed, h]

/-- What one FEED can do: nothing to feed; a frame too large; a frame with a message or without one; part of a frame that does
not fit; part of a frame kept. -/
theorem Accumulator.feed_cases (a : Accumulator) (input : List Byte) :
    (input = [] ∧ a.feed input = (.consumed, a)) ∨
    (∃ pre rest, input = pre ++ Config.sentinel :: rest ∧ (∀ b ∈ pre, b ≠ Config.sentinel) ∧
      ((Config.accCap < a.idx + (pre.length + 1) ∧ a.feed input = (.overFull rest, { a with idx := 0 })) ∨
       (a.idx + (pre.length + 1) ≤ Config.accCap ∧
        ∃ buf, buf = a.buf.writeBytes a.idx (pre ++ [Config.sentinel]) ∧
          ((∃ m, unframe (buf.readBytes 0 (a.idx + pre.length)) = .ok m ∧
              a.feed input = (.success m rest, { buf := buf, idx := 0 })) ∨
           (∃ e, unframe (buf.readBytes 0 (a.idx + pre.length)) = .err e ∧
              a.feed input = (.deserError rest, { buf := buf, idx := 0 })))))) ∨
    (input ≠ [] ∧ (∀ b ∈ input, b ≠ Config.sentinel) ∧
      ((Config.accCap < a.idx + input.length ∧
          a.feed input = (.overFull (input.drop (Config.accCap - a.idx)), { a with idx := 0 })) ∨
       (a.idx + input.length ≤ Config.accCap ∧
          a.feed input = (.consumed, { buf := a.buf.writeBytes a.idx input, idx := a.idx + input.length })))) := by
  by_cases hne : input = []
  · exact .inl ⟨hne, by rw [hne]; rfl⟩
  · cases hs : splitSentinel input with
    | some pr =>
      obtain ⟨pre, rest⟩ := pr
      obtain ⟨h1, h2⟩ := splitSentinel_some hs
      refine .inr (.inl ⟨pre, rest, h1, h2, ?_⟩)
      rw [Accumulator.feed_some hs]
      unfold Accumulator.feedFrame
      split
      · exact .inl ⟨‹_›, rfl⟩
      · refine .inr ⟨by omega, _, rfl, ?_⟩
        cases hu : unframe ((a.buf.writeBytes a.idx (pre ++ [Config.sentinel])).readBytes 0 (a.idx + pre.length)) with
        | ok m => exact .inl ⟨m, rfl, by simp only [hu]⟩
        | err e => exact .inr ⟨e, rfl, by simp only [hu]⟩
    | none =>
      refine .inr (.inr ⟨hne, splitSentinel_none hs, ?_⟩)
      rw [Accumulator.feed_none hne hs]
      unfold Accumulator.feedPart
      split
      · exact .inl ⟨‹_›, rfl⟩
      · exact .inr ⟨by omega, rfl⟩

end Sys2Proof.Machine
end

