-- ==== Sys2Proof/Laws/State.lean ====
section
/-! SUPPORT. One lemma per field per update of State, and one per draw that an update leaves alone, each true by `rfl`. -/

namespace Sys2Proof.Machine

variable (s : State)

@[simp] theorem State.setPhase_cfg (p : Phase) : (s.setPhase p).cfg = s.cfg := rfl
@[simp] theorem State.setPhase_acc (p : Phase) : (s.setPhase p).acc = s.acc := rfl
@[simp] theorem State.setPhase_lastTxn (p : Phase) : (s.setPhase p).lastTxn = s.lastTxn := rfl
@[simp] theorem State.setPhase_busLog (p : Phase) : (s.setPhase p).busLog = s.busLog := rfl
@[simp] theorem State.setPhase_drPending (p : Phase) : (s.setPhase p).drPending = s.drPending := rfl
@[simp] theorem State.setPhase_rstLine (p : Phase) : (s.setPhase p).rstLine = s.rstLine := rfl
@[simp] theorem State.setPhase_phase (p : Phase) : (s.setPhase p).phase = p := rfl
@[simp] theorem State.setPhase_resp (p : Phase) : (s.setPhase p).resp = s.resp := rfl
@[simp] theorem State.setPhase_rx (p : Phase) : (s.setPhase p).rx = s.rx := rfl
@[simp] theorem State.setPhase_tx (p : Phase) : (s.setPhase p).tx = s.tx := rfl
@[simp] theorem State.setPhase_now (p : Phase) : (s.setPhase p).now = s.now := rfl
@[simp] theorem State.setPhase_turns (p : Phase) : (s.setPhase p).turns = s.turns := rfl
@[simp] theorem State.setPhase_answers (p : Phase) : (s.setPhase p).answers = s.answers := rfl
@[simp] theorem State.setPhase_clockReplies (p : Phase) : (s.setPhase p).clockReplies = s.clockReplies := rfl
@[simp] theorem State.setPhase_readReplies (p : Phase) : (s.setPhase p).readReplies = s.readReplies := rfl
@[simp] theorem State.setPhase_writeReplies (p : Phase) : (s.setPhase p).writeReplies = s.writeReplies := rfl
@[simp] theorem State.setPhase_draws (p : Phase) : (s.setPhase p).draws = s.draws := rfl
@[simp] theorem State.setPhase_nextTurn (p : Phase) : (s.setPhase p).nextTurn = s.nextTurn := rfl
@[simp] theorem State.setPhase_clockOk (p : Phase) : (s.setPhase p).clockOk = s.clockOk := rfl
@[simp] theorem State.setPhase_readOk (p : Phase) : (s.setPhase p).readOk = s.readOk := rfl
@[simp] theorem State.setPhase_writeOk (p : Phase) : (s.setPhase p).writeOk = s.writeOk := rfl
@[simp] theorem State.setPhase_answer (p : Phase) (w' : Word) : (s.setPhase p).answer w' = s.answer w' := rfl

@[simp] theorem State.setCfg_cfg (c : FwConfig) : (s.setCfg c).cfg = c := rfl
@[simp] theorem State.setCfg_acc (c : FwConfig) : (s.setCfg c).acc = s.acc := rfl
@[simp] theorem State.setCfg_lastTxn (c : FwConfig) : (s.setCfg c).lastTxn = s.lastTxn := rfl
@[simp] theorem State.setCfg_busLog (c : FwConfig) : (s.setCfg c).busLog = s.busLog := rfl
@[simp] theorem State.setCfg_drPending (c : FwConfig) : (s.setCfg c).drPending = s.drPending := rfl
@[simp] theorem State.setCfg_rstLine (c : FwConfig) : (s.setCfg c).rstLine = s.rstLine := rfl
@[simp] theorem State.setCfg_phase (c : FwConfig) : (s.setCfg c).phase = s.phase := rfl
@[simp] theorem State.setCfg_resp (c : FwConfig) : (s.setCfg c).resp = s.resp := rfl
@[simp] theorem State.setCfg_rx (c : FwConfig) : (s.setCfg c).rx = s.rx := rfl
@[simp] theorem State.setCfg_tx (c : FwConfig) : (s.setCfg c).tx = s.tx := rfl
@[simp] theorem State.setCfg_now (c : FwConfig) : (s.setCfg c).now = s.now := rfl
@[simp] theorem State.setCfg_turns (c : FwConfig) : (s.setCfg c).turns = s.turns := rfl
@[simp] theorem State.setCfg_answers (c : FwConfig) : (s.setCfg c).answers = s.answers := rfl
@[simp] theorem State.setCfg_clockReplies (c : FwConfig) : (s.setCfg c).clockReplies = s.clockReplies := rfl
@[simp] theorem State.setCfg_readReplies (c : FwConfig) : (s.setCfg c).readReplies = s.readReplies := rfl
@[simp] theorem State.setCfg_writeReplies (c : FwConfig) : (s.setCfg c).writeReplies = s.writeReplies := rfl
@[simp] theorem State.setCfg_draws (c : FwConfig) : (s.setCfg c).draws = s.draws := rfl
@[simp] theorem State.setCfg_nextTurn (c : FwConfig) : (s.setCfg c).nextTurn = s.nextTurn := rfl
@[simp] theorem State.setCfg_clockOk (c : FwConfig) : (s.setCfg c).clockOk = s.clockOk := rfl
@[simp] theorem State.setCfg_readOk (c : FwConfig) : (s.setCfg c).readOk = s.readOk := rfl
@[simp] theorem State.setCfg_writeOk (c : FwConfig) : (s.setCfg c).writeOk = s.writeOk := rfl
@[simp] theorem State.setCfg_answer (c : FwConfig) (w' : Word) : (s.setCfg c).answer w' = s.answer w' := rfl

@[simp] theorem State.setBurstEnabled_cfg (v : Bool) : (s.setBurstEnabled v).cfg = { s.cfg with burstEnabled := v } := rfl
@[simp] theorem State.setBurstEnabled_acc (v : Bool) : (s.setBurstEnabled v).acc = s.acc := rfl
@[simp] theorem State.setBurstEnabled_lastTxn (v : Bool) : (s.setBurstEnabled v).lastTxn = s.lastTxn := rfl
@[simp] theorem State.setBurstEnabled_busLog (v : Bool) : (s.setBurstEnabled v).busLog = s.busLog := rfl
@[simp] theorem State.setBurstEnabled_drPending (v : Bool) : (s.setBurstEnabled v).drPending = s.drPending := rfl
@[simp] theorem State.setBurstEnabled_rstLine (v : Bool) : (s.setBurstEnabled v).rstLine = s.rstLine := rfl
@[simp] theorem State.setBurstEnabled_phase (v : Bool) : (s.setBurstEnabled v).phase = s.phase := rfl
@[simp] theorem State.setBurstEnabled_resp (v : Bool) : (s.setBurstEnabled v).resp = s.resp := rfl
@[simp] theorem State.setBurstEnabled_rx (v : Bool) : (s.setBurstEnabled v).rx = s.rx := rfl
@[simp] theorem State.setBurstEnabled_tx (v : Bool) : (s.setBurstEnabled v).tx = s.tx := rfl
@[simp] theorem State.setBurstEnabled_now (v : Bool) : (s.setBurstEnabled v).now = s.now := rfl
@[simp] theorem State.setBurstEnabled_turns (v : Bool) : (s.setBurstEnabled v).turns = s.turns := rfl
@[simp] theorem State.setBurstEnabled_answers (v : Bool) : (s.setBurstEnabled v).answers = s.answers := rfl
@[simp] theorem State.setBurstEnabled_clockReplies (v : Bool) : (s.setBurstEnabled v).clockReplies = s.clockReplies := rfl
@[simp] theorem State.setBurstEnabled_readReplies (v : Bool) : (s.setBurstEnabled v).readReplies = s.readReplies := rfl
@[simp] theorem State.setBurstEnabled_writeReplies (v : Bool) : (s.setBurstEnabled v).writeReplies = s.writeReplies := rfl
@[simp] theorem State.setBurstEnabled_draws (v : Bool) : (s.setBurstEnabled v).draws = s.draws := rfl
@[simp] theorem State.setBurstEnabled_nextTurn (v : Bool) : (s.setBurstEnabled v).nextTurn = s.nextTurn := rfl
@[simp] theorem State.setBurstEnabled_clockOk (v : Bool) : (s.setBurstEnabled v).clockOk = s.clockOk := rfl
@[simp] theorem State.setBurstEnabled_readOk (v : Bool) : (s.setBurstEnabled v).readOk = s.readOk := rfl
@[simp] theorem State.setBurstEnabled_writeOk (v : Bool) : (s.setBurstEnabled v).writeOk = s.writeOk := rfl
@[simp] theorem State.setBurstEnabled_answer (v : Bool) (w' : Word) : (s.setBurstEnabled v).answer w' = s.answer w' := rfl

@[simp] theorem State.setAcc_cfg (a : Accumulator) : (s.setAcc a).cfg = s.cfg := rfl
@[simp] theorem State.setAcc_acc (a : Accumulator) : (s.setAcc a).acc = a := rfl
@[simp] theorem State.setAcc_lastTxn (a : Accumulator) : (s.setAcc a).lastTxn = s.lastTxn := rfl
@[simp] theorem State.setAcc_busLog (a : Accumulator) : (s.setAcc a).busLog = s.busLog := rfl
@[simp] theorem State.setAcc_drPending (a : Accumulator) : (s.setAcc a).drPending = s.drPending := rfl
@[simp] theorem State.setAcc_rstLine (a : Accumulator) : (s.setAcc a).rstLine = s.rstLine := rfl
@[simp] theorem State.setAcc_phase (a : Accumulator) : (s.setAcc a).phase = s.phase := rfl
@[simp] theorem State.setAcc_resp (a : Accumulator) : (s.setAcc a).resp = s.resp := rfl
@[simp] theorem State.setAcc_rx (a : Accumulator) : (s.setAcc a).rx = s.rx := rfl
@[simp] theorem State.setAcc_tx (a : Accumulator) : (s.setAcc a).tx = s.tx := rfl
@[simp] theorem State.setAcc_now (a : Accumulator) : (s.setAcc a).now = s.now := rfl
@[simp] theorem State.setAcc_turns (a : Accumulator) : (s.setAcc a).turns = s.turns := rfl
@[simp] theorem State.setAcc_answers (a : Accumulator) : (s.setAcc a).answers = s.answers := rfl
@[simp] theorem State.setAcc_clockReplies (a : Accumulator) : (s.setAcc a).clockReplies = s.clockReplies := rfl
@[simp] theorem State.setAcc_readReplies (a : Accumulator) : (s.setAcc a).readReplies = s.readReplies := rfl
@[simp] theorem State.setAcc_writeReplies (a : Accumulator) : (s.setAcc a).writeReplies = s.writeReplies := rfl
@[simp] theorem State.setAcc_draws (a : Accumulator) : (s.setAcc a).draws = s.draws := rfl
@[simp] theorem State.setAcc_nextTurn (a : Accumulator) : (s.setAcc a).nextTurn = s.nextTurn := rfl
@[simp] theorem State.setAcc_clockOk (a : Accumulator) : (s.setAcc a).clockOk = s.clockOk := rfl
@[simp] theorem State.setAcc_readOk (a : Accumulator) : (s.setAcc a).readOk = s.readOk := rfl
@[simp] theorem State.setAcc_writeOk (a : Accumulator) : (s.setAcc a).writeOk = s.writeOk := rfl
@[simp] theorem State.setAcc_answer (a : Accumulator) (w' : Word) : (s.setAcc a).answer w' = s.answer w' := rfl

@[simp] theorem State.setDrPending_cfg (v : Bool) : (s.setDrPending v).cfg = s.cfg := rfl
@[simp] theorem State.setDrPending_acc (v : Bool) : (s.setDrPending v).acc = s.acc := rfl
@[simp] theorem State.setDrPending_lastTxn (v : Bool) : (s.setDrPending v).lastTxn = s.lastTxn := rfl
@[simp] theorem State.setDrPending_busLog (v : Bool) : (s.setDrPending v).busLog = s.busLog := rfl
@[simp] theorem State.setDrPending_drPending (v : Bool) : (s.setDrPending v).drPending = v := rfl
@[simp] theorem State.setDrPending_rstLine (v : Bool) : (s.setDrPending v).rstLine = s.rstLine := rfl
@[simp] theorem State.setDrPending_phase (v : Bool) : (s.setDrPending v).phase = s.phase := rfl
@[simp] theorem State.setDrPending_resp (v : Bool) : (s.setDrPending v).resp = s.resp := rfl
@[simp] theorem State.setDrPending_rx (v : Bool) : (s.setDrPending v).rx = s.rx := rfl
@[simp] theorem State.setDrPending_tx (v : Bool) : (s.setDrPending v).tx = s.tx := rfl
@[simp] theorem State.setDrPending_now (v : Bool) : (s.setDrPending v).now = s.now := rfl
@[simp] theorem State.setDrPending_turns (v : Bool) : (s.setDrPending v).turns = s.turns := rfl
@[simp] theorem State.setDrPending_answers (v : Bool) : (s.setDrPending v).answers = s.answers := rfl
@[simp] theorem State.setDrPending_clockReplies (v : Bool) : (s.setDrPending v).clockReplies = s.clockReplies := rfl
@[simp] theorem State.setDrPending_readReplies (v : Bool) : (s.setDrPending v).readReplies = s.readReplies := rfl
@[simp] theorem State.setDrPending_writeReplies (v : Bool) : (s.setDrPending v).writeReplies = s.writeReplies := rfl
@[simp] theorem State.setDrPending_draws (v : Bool) : (s.setDrPending v).draws = s.draws := rfl
@[simp] theorem State.setDrPending_nextTurn (v : Bool) : (s.setDrPending v).nextTurn = s.nextTurn := rfl
@[simp] theorem State.setDrPending_clockOk (v : Bool) : (s.setDrPending v).clockOk = s.clockOk := rfl
@[simp] theorem State.setDrPending_readOk (v : Bool) : (s.setDrPending v).readOk = s.readOk := rfl
@[simp] theorem State.setDrPending_writeOk (v : Bool) : (s.setDrPending v).writeOk = s.writeOk := rfl
@[simp] theorem State.setDrPending_answer (v : Bool) (w' : Word) : (s.setDrPending v).answer w' = s.answer w' := rfl

@[simp] theorem State.setReset_cfg (l : Level) : (s.setReset l).cfg = s.cfg := rfl
@[simp] theorem State.setReset_acc (l : Level) : (s.setReset l).acc = s.acc := rfl
@[simp] theorem State.setReset_lastTxn (l : Level) : (s.setReset l).lastTxn = s.lastTxn := rfl
@[simp] theorem State.setReset_busLog (l : Level) : (s.setReset l).busLog = s.busLog := rfl
@[simp] theorem State.setReset_drPending (l : Level) : (s.setReset l).drPending = s.drPending := rfl
@[simp] theorem State.setReset_rstLine (l : Level) : (s.setReset l).rstLine = l := rfl
@[simp] theorem State.setReset_phase (l : Level) : (s.setReset l).phase = s.phase := rfl
@[simp] theorem State.setReset_resp (l : Level) : (s.setReset l).resp = s.resp := rfl
@[simp] theorem State.setReset_rx (l : Level) : (s.setReset l).rx = s.rx := rfl
@[simp] theorem State.setReset_tx (l : Level) : (s.setReset l).tx = s.tx := rfl
@[simp] theorem State.setReset_now (l : Level) : (s.setReset l).now = s.now := rfl
@[simp] theorem State.setReset_turns (l : Level) : (s.setReset l).turns = s.turns := rfl
@[simp] theorem State.setReset_answers (l : Level) : (s.setReset l).answers = s.answers := rfl
@[simp] theorem State.setReset_clockReplies (l : Level) : (s.setReset l).clockReplies = s.clockReplies := rfl
@[simp] theorem State.setReset_readReplies (l : Level) : (s.setReset l).readReplies = s.readReplies := rfl
@[simp] theorem State.setReset_writeReplies (l : Level) : (s.setReset l).writeReplies = s.writeReplies := rfl
@[simp] theorem State.setReset_draws (l : Level) : (s.setReset l).draws = s.draws := rfl
@[simp] theorem State.setReset_nextTurn (l : Level) : (s.setReset l).nextTurn = s.nextTurn := rfl
@[simp] theorem State.setReset_clockOk (l : Level) : (s.setReset l).clockOk = s.clockOk := rfl
@[simp] theorem State.setReset_readOk (l : Level) : (s.setReset l).readOk = s.readOk := rfl
@[simp] theorem State.setReset_writeOk (l : Level) : (s.setReset l).writeOk = s.writeOk := rfl

@[simp] theorem State.pushResp_cfg (m : Message) : (s.pushResp m).cfg = s.cfg := rfl
@[simp] theorem State.pushResp_acc (m : Message) : (s.pushResp m).acc = s.acc := rfl
@[simp] theorem State.pushResp_lastTxn (m : Message) : (s.pushResp m).lastTxn = s.lastTxn := rfl
@[simp] theorem State.pushResp_busLog (m : Message) : (s.pushResp m).busLog = s.busLog := rfl
@[simp] theorem State.pushResp_drPending (m : Message) : (s.pushResp m).drPending = s.drPending := rfl
@[simp] theorem State.pushResp_rstLine (m : Message) : (s.pushResp m).rstLine = s.rstLine := rfl
@[simp] theorem State.pushResp_phase (m : Message) : (s.pushResp m).phase = s.phase := rfl
@[simp] theorem State.pushResp_resp (m : Message) : (s.pushResp m).resp = s.resp ++ [m] := rfl
@[simp] theorem State.pushResp_rx (m : Message) : (s.pushResp m).rx = s.rx := rfl
@[simp] theorem State.pushResp_tx (m : Message) : (s.pushResp m).tx = s.tx := rfl
@[simp] theorem State.pushResp_now (m : Message) : (s.pushResp m).now = s.now := rfl
@[simp] theorem State.pushResp_turns (m : Message) : (s.pushResp m).turns = s.turns := rfl
@[simp] theorem State.pushResp_answers (m : Message) : (s.pushResp m).answers = s.answers := rfl
@[simp] theorem State.pushResp_clockReplies (m : Message) : (s.pushResp m).clockReplies = s.clockReplies := rfl
@[simp] theorem State.pushResp_readReplies (m : Message) : (s.pushResp m).readReplies = s.readReplies := rfl
@[simp] theorem State.pushResp_writeReplies (m : Message) : (s.pushResp m).writeReplies = s.writeReplies := rfl
@[simp] theorem State.pushResp_draws (m : Message) : (s.pushResp m).draws = s.draws := rfl
@[simp] theorem State.pushResp_nextTurn (m : Message) : (s.pushResp m).nextTurn = s.nextTurn := rfl
@[simp] theorem State.pushResp_clockOk (m : Message) : (s.pushResp m).clockOk = s.clockOk := rfl
@[simp] theorem State.pushResp_readOk (m : Message) : (s.pushResp m).readOk = s.readOk := rfl
@[simp] theorem State.pushResp_writeOk (m : Message) : (s.pushResp m).writeOk = s.writeOk := rfl
@[simp] theorem State.pushResp_answer (m : Message) (w' : Word) : (s.pushResp m).answer w' = s.answer w' := rfl

@[simp] theorem State.clearResp_cfg : s.clearResp.cfg = s.cfg := rfl
@[simp] theorem State.clearResp_acc : s.clearResp.acc = s.acc := rfl
@[simp] theorem State.clearResp_lastTxn : s.clearResp.lastTxn = s.lastTxn := rfl
@[simp] theorem State.clearResp_busLog : s.clearResp.busLog = s.busLog := rfl
@[simp] theorem State.clearResp_drPending : s.clearResp.drPending = s.drPending := rfl
@[simp] theorem State.clearResp_rstLine : s.clearResp.rstLine = s.rstLine := rfl
@[simp] theorem State.clearResp_phase : s.clearResp.phase = s.phase := rfl
@[simp] theorem State.clearResp_resp : s.clearResp.resp = [] := rfl
@[simp] theorem State.clearResp_rx : s.clearResp.rx = s.rx := rfl
@[simp] theorem State.clearResp_tx : s.clearResp.tx = s.tx := rfl
@[simp] theorem State.clearResp_now : s.clearResp.now = s.now := rfl
@[simp] theorem State.clearResp_turns : s.clearResp.turns = s.turns := rfl
@[simp] theorem State.clearResp_answers : s.clearResp.answers = s.answers := rfl
@[simp] theorem State.clearResp_clockReplies : s.clearResp.clockReplies = s.clockReplies := rfl
@[simp] theorem State.clearResp_readReplies : s.clearResp.readReplies = s.readReplies := rfl
@[simp] theorem State.clearResp_writeReplies : s.clearResp.writeReplies = s.writeReplies := rfl
@[simp] theorem State.clearResp_draws : s.clearResp.draws = s.draws := rfl
@[simp] theorem State.clearResp_nextTurn : s.clearResp.nextTurn = s.nextTurn := rfl
@[simp] theorem State.clearResp_clockOk : s.clearResp.clockOk = s.clockOk := rfl
@[simp] theorem State.clearResp_readOk : s.clearResp.readOk = s.readOk := rfl
@[simp] theorem State.clearResp_writeOk : s.clearResp.writeOk = s.writeOk := rfl
@[simp] theorem State.clearResp_answer (w' : Word) : s.clearResp.answer w' = s.answer w' := rfl

@[simp] theorem State.setRx_cfg (bs : List Byte) : (s.setRx bs).cfg = s.cfg := rfl
@[simp] theorem State.setRx_acc (bs : List Byte) : (s.setRx bs).acc = s.acc := rfl
@[simp] theorem State.setRx_lastTxn (bs : List Byte) : (s.setRx bs).lastTxn = s.lastTxn := rfl
@[simp] theorem State.setRx_busLog (bs : List Byte) : (s.setRx bs).busLog = s.busLog := rfl
@[simp] theorem State.setRx_drPending (bs : List Byte) : (s.setRx bs).drPending = s.drPending := rfl
@[simp] theorem State.setRx_rstLine (bs : List Byte) : (s.setRx bs).rstLine = s.rstLine := rfl
@[simp] theorem State.setRx_phase (bs : List Byte) : (s.setRx bs).phase = s.phase := rfl
@[simp] theorem State.setRx_resp (bs : List Byte) : (s.setRx bs).resp = s.resp := rfl
@[simp] theorem State.setRx_rx (bs : List Byte) : (s.setRx bs).rx = bs := rfl
@[simp] theorem State.setRx_tx (bs : List Byte) : (s.setRx bs).tx = s.tx := rfl
@[simp] theorem State.setRx_now (bs : List Byte) : (s.setRx bs).now = s.now := rfl
@[simp] theorem State.setRx_turns (bs : List Byte) : (s.setRx bs).turns = s.turns := rfl
@[simp] theorem State.setRx_answers (bs : List Byte) : (s.setRx bs).answers = s.answers := rfl
@[simp] theorem State.setRx_clockReplies (bs : List Byte) : (s.setRx bs).clockReplies = s.clockReplies := rfl
@[simp] theorem State.setRx_readReplies (bs : List Byte) : (s.setRx bs).readReplies = s.readReplies := rfl
@[simp] theorem State.setRx_writeReplies (bs : List Byte) : (s.setRx bs).writeReplies = s.writeReplies := rfl
@[simp] theorem State.setRx_draws (bs : List Byte) : (s.setRx bs).draws = s.draws := rfl
@[simp] theorem State.setRx_nextTurn (bs : List Byte) : (s.setRx bs).nextTurn = s.nextTurn := rfl
@[simp] theorem State.setRx_clockOk (bs : List Byte) : (s.setRx bs).clockOk = s.clockOk := rfl
@[simp] theorem State.setRx_readOk (bs : List Byte) : (s.setRx bs).readOk = s.readOk := rfl
@[simp] theorem State.setRx_writeOk (bs : List Byte) : (s.setRx bs).writeOk = s.writeOk := rfl
@[simp] theorem State.setRx_answer (bs : List Byte) (w' : Word) : (s.setRx bs).answer w' = s.answer w' := rfl

@[simp] theorem State.setTx_cfg (bs : List Byte) : (s.setTx bs).cfg = s.cfg := rfl
@[simp] theorem State.setTx_acc (bs : List Byte) : (s.setTx bs).acc = s.acc := rfl
@[simp] theorem State.setTx_lastTxn (bs : List Byte) : (s.setTx bs).lastTxn = s.lastTxn := rfl
@[simp] theorem State.setTx_busLog (bs : List Byte) : (s.setTx bs).busLog = s.busLog := rfl
@[simp] theorem State.setTx_drPending (bs : List Byte) : (s.setTx bs).drPending = s.drPending := rfl
@[simp] theorem State.setTx_rstLine (bs : List Byte) : (s.setTx bs).rstLine = s.rstLine := rfl
@[simp] theorem State.setTx_phase (bs : List Byte) : (s.setTx bs).phase = s.phase := rfl
@[simp] theorem State.setTx_resp (bs : List Byte) : (s.setTx bs).resp = s.resp := rfl
@[simp] theorem State.setTx_rx (bs : List Byte) : (s.setTx bs).rx = s.rx := rfl
@[simp] theorem State.setTx_tx (bs : List Byte) : (s.setTx bs).tx = bs := rfl
@[simp] theorem State.setTx_now (bs : List Byte) : (s.setTx bs).now = s.now := rfl
@[simp] theorem State.setTx_turns (bs : List Byte) : (s.setTx bs).turns = s.turns := rfl
@[simp] theorem State.setTx_answers (bs : List Byte) : (s.setTx bs).answers = s.answers := rfl
@[simp] theorem State.setTx_clockReplies (bs : List Byte) : (s.setTx bs).clockReplies = s.clockReplies := rfl
@[simp] theorem State.setTx_readReplies (bs : List Byte) : (s.setTx bs).readReplies = s.readReplies := rfl
@[simp] theorem State.setTx_writeReplies (bs : List Byte) : (s.setTx bs).writeReplies = s.writeReplies := rfl
@[simp] theorem State.setTx_draws (bs : List Byte) : (s.setTx bs).draws = s.draws := rfl
@[simp] theorem State.setTx_nextTurn (bs : List Byte) : (s.setTx bs).nextTurn = s.nextTurn := rfl
@[simp] theorem State.setTx_clockOk (bs : List Byte) : (s.setTx bs).clockOk = s.clockOk := rfl
@[simp] theorem State.setTx_readOk (bs : List Byte) : (s.setTx bs).readOk = s.readOk := rfl
@[simp] theorem State.setTx_writeOk (bs : List Byte) : (s.setTx bs).writeOk = s.writeOk := rfl
@[simp] theorem State.setTx_answer (bs : List Byte) (w' : Word) : (s.setTx bs).answer w' = s.answer w' := rfl

@[simp] theorem State.setNow_cfg (t : Nat) : (s.setNow t).cfg = s.cfg := rfl
@[simp] theorem State.setNow_acc (t : Nat) : (s.setNow t).acc = s.acc := rfl
@[simp] theorem State.setNow_lastTxn (t : Nat) : (s.setNow t).lastTxn = s.lastTxn := rfl
@[simp] theorem State.setNow_busLog (t : Nat) : (s.setNow t).busLog = s.busLog := rfl
@[simp] theorem State.setNow_drPending (t : Nat) : (s.setNow t).drPending = s.drPending := rfl
@[simp] theorem State.setNow_rstLine (t : Nat) : (s.setNow t).rstLine = s.rstLine := rfl
@[simp] theorem State.setNow_phase (t : Nat) : (s.setNow t).phase = s.phase := rfl
@[simp] theorem State.setNow_resp (t : Nat) : (s.setNow t).resp = s.resp := rfl
@[simp] theorem State.setNow_rx (t : Nat) : (s.setNow t).rx = s.rx := rfl
@[simp] theorem State.setNow_tx (t : Nat) : (s.setNow t).tx = s.tx := rfl
@[simp] theorem State.setNow_now (t : Nat) : (s.setNow t).now = t := rfl
@[simp] theorem State.setNow_turns (t : Nat) : (s.setNow t).turns = s.turns := rfl
@[simp] theorem State.setNow_answers (t : Nat) : (s.setNow t).answers = s.answers := rfl
@[simp] theorem State.setNow_clockReplies (t : Nat) : (s.setNow t).clockReplies = s.clockReplies := rfl
@[simp] theorem State.setNow_readReplies (t : Nat) : (s.setNow t).readReplies = s.readReplies := rfl
@[simp] theorem State.setNow_writeReplies (t : Nat) : (s.setNow t).writeReplies = s.writeReplies := rfl
@[simp] theorem State.setNow_draws (t : Nat) : (s.setNow t).draws = s.draws := rfl
@[simp] theorem State.setNow_nextTurn (t : Nat) : (s.setNow t).nextTurn = s.nextTurn := rfl
@[simp] theorem State.setNow_clockOk (t : Nat) : (s.setNow t).clockOk = s.clockOk := rfl
@[simp] theorem State.setNow_readOk (t : Nat) : (s.setNow t).readOk = s.readOk := rfl
@[simp] theorem State.setNow_writeOk (t : Nat) : (s.setNow t).writeOk = s.writeOk := rfl
@[simp] theorem State.setNow_answer (t : Nat) (w' : Word) : (s.setNow t).answer w' = s.answer w' := rfl

@[simp] theorem State.popTurn_cfg : s.popTurn.cfg = s.cfg := rfl
@[simp] theorem State.popTurn_acc : s.popTurn.acc = s.acc := rfl
@[simp] theorem State.popTurn_lastTxn : s.popTurn.lastTxn = s.lastTxn := rfl
@[simp] theorem State.popTurn_busLog : s.popTurn.busLog = s.busLog := rfl
@[simp] theorem State.popTurn_drPending : s.popTurn.drPending = s.drPending := rfl
@[simp] theorem State.popTurn_rstLine : s.popTurn.rstLine = s.rstLine := rfl
@[simp] theorem State.popTurn_phase : s.popTurn.phase = s.phase := rfl
@[simp] theorem State.popTurn_resp : s.popTurn.resp = s.resp := rfl
@[simp] theorem State.popTurn_rx : s.popTurn.rx = s.rx := rfl
@[simp] theorem State.popTurn_tx : s.popTurn.tx = s.tx := rfl
@[simp] theorem State.popTurn_now : s.popTurn.now = s.now := rfl
@[simp] theorem State.popTurn_turns : s.popTurn.turns = s.turns.tail := rfl
@[simp] theorem State.popTurn_answers : s.popTurn.answers = s.answers := rfl
@[simp] theorem State.popTurn_clockReplies : s.popTurn.clockReplies = s.clockReplies := rfl
@[simp] theorem State.popTurn_readReplies : s.popTurn.readReplies = s.readReplies := rfl
@[simp] theorem State.popTurn_writeReplies : s.popTurn.writeReplies = s.writeReplies := rfl
@[simp] theorem State.popTurn_draws : s.popTurn.draws = s.draws + 1 := rfl

@[simp] theorem State.popAnswer_cfg : s.popAnswer.cfg = s.cfg := rfl
@[simp] theorem State.popAnswer_acc : s.popAnswer.acc = s.acc := rfl
@[simp] theorem State.popAnswer_lastTxn : s.popAnswer.lastTxn = s.lastTxn := rfl
@[simp] theorem State.popAnswer_busLog : s.popAnswer.busLog = s.busLog := rfl
@[simp] theorem State.popAnswer_drPending : s.popAnswer.drPending = s.drPending := rfl
@[simp] theorem State.popAnswer_rstLine : s.popAnswer.rstLine = s.rstLine := rfl
@[simp] theorem State.popAnswer_phase : s.popAnswer.phase = s.phase := rfl
@[simp] theorem State.popAnswer_resp : s.popAnswer.resp = s.resp := rfl
@[simp] theorem State.popAnswer_rx : s.popAnswer.rx = s.rx := rfl
@[simp] theorem State.popAnswer_tx : s.popAnswer.tx = s.tx := rfl
@[simp] theorem State.popAnswer_now : s.popAnswer.now = s.now := rfl
@[simp] theorem State.popAnswer_turns : s.popAnswer.turns = s.turns := rfl
@[simp] theorem State.popAnswer_answers : s.popAnswer.answers = s.answers.tail := rfl
@[simp] theorem State.popAnswer_clockReplies : s.popAnswer.clockReplies = s.clockReplies := rfl
@[simp] theorem State.popAnswer_readReplies : s.popAnswer.readReplies = s.readReplies := rfl
@[simp] theorem State.popAnswer_writeReplies : s.popAnswer.writeReplies = s.writeReplies := rfl
@[simp] theorem State.popAnswer_draws : s.popAnswer.draws = s.draws + 1 := rfl

@[simp] theorem State.popClock_cfg : s.popClock.cfg = s.cfg := rfl
@[simp] theorem State.popClock_acc : s.popClock.acc = s.acc := rfl
@[simp] theorem State.popClock_lastTxn : s.popClock.lastTxn = s.lastTxn := rfl
@[simp] theorem State.popClock_busLog : s.popClock.busLog = s.busLog := rfl
@[simp] theorem State.popClock_drPending : s.popClock.drPending = s.drPending := rfl
@[simp] theorem State.popClock_rstLine : s.popClock.rstLine = s.rstLine := rfl
@[simp] theorem State.popClock_phase : s.popClock.phase = s.phase := rfl
@[simp] theorem State.popClock_resp : s.popClock.resp = s.resp := rfl
@[simp] theorem State.popClock_rx : s.popClock.rx = s.rx := rfl
@[simp] theorem State.popClock_tx : s.popClock.tx = s.tx := rfl
@[simp] theorem State.popClock_now : s.popClock.now = s.now := rfl
@[simp] theorem State.popClock_turns : s.popClock.turns = s.turns := rfl
@[simp] theorem State.popClock_answers : s.popClock.answers = s.answers := rfl
@[simp] theorem State.popClock_clockReplies : s.popClock.clockReplies = s.clockReplies.tail := rfl
@[simp] theorem State.popClock_readReplies : s.popClock.readReplies = s.readReplies := rfl
@[simp] theorem State.popClock_writeReplies : s.popClock.writeReplies = s.writeReplies := rfl
@[simp] theorem State.popClock_draws : s.popClock.draws = s.draws + 1 := rfl

@[simp] theorem State.popRead_cfg : s.popRead.cfg = s.cfg := rfl
@[simp] theorem State.popRead_acc : s.popRead.acc = s.acc := rfl
@[simp] theorem State.popRead_lastTxn : s.popRead.lastTxn = s.lastTxn := rfl
@[simp] theorem State.popRead_busLog : s.popRead.busLog = s.busLog := rfl
@[simp] theorem State.popRead_drPending : s.popRead.drPending = s.drPending := rfl
@[simp] theorem State.popRead_rstLine : s.popRead.rstLine = s.rstLine := rfl
@[simp] theorem State.popRead_phase : s.popRead.phase = s.phase := rfl
@[simp] theorem State.popRead_resp : s.popRead.resp = s.resp := rfl
@[simp] theorem State.popRead_rx : s.popRead.rx = s.rx := rfl
@[simp] theorem State.popRead_tx : s.popRead.tx = s.tx := rfl
@[simp] theorem State.popRead_now : s.popRead.now = s.now := rfl
@[simp] theorem State.popRead_turns : s.popRead.turns = s.turns := rfl
@[simp] theorem State.popRead_answers : s.popRead.answers = s.answers := rfl
@[simp] theorem State.popRead_clockReplies : s.popRead.clockReplies = s.clockReplies := rfl
@[simp] theorem State.popRead_readReplies : s.popRead.readReplies = s.readReplies.tail := rfl
@[simp] theorem State.popRead_writeReplies : s.popRead.writeReplies = s.writeReplies := rfl
@[simp] theorem State.popRead_draws : s.popRead.draws = s.draws + 1 := rfl

@[simp] theorem State.popWrite_cfg : s.popWrite.cfg = s.cfg := rfl
@[simp] theorem State.popWrite_acc : s.popWrite.acc = s.acc := rfl
@[simp] theorem State.popWrite_lastTxn : s.popWrite.lastTxn = s.lastTxn := rfl
@[simp] theorem State.popWrite_busLog : s.popWrite.busLog = s.busLog := rfl
@[simp] theorem State.popWrite_drPending : s.popWrite.drPending = s.drPending := rfl
@[simp] theorem State.popWrite_rstLine : s.popWrite.rstLine = s.rstLine := rfl
@[simp] theorem State.popWrite_phase : s.popWrite.phase = s.phase := rfl
@[simp] theorem State.popWrite_resp : s.popWrite.resp = s.resp := rfl
@[simp] theorem State.popWrite_rx : s.popWrite.rx = s.rx := rfl
@[simp] theorem State.popWrite_tx : s.popWrite.tx = s.tx := rfl
@[simp] theorem State.popWrite_now : s.popWrite.now = s.now := rfl
@[simp] theorem State.popWrite_turns : s.popWrite.turns = s.turns := rfl
@[simp] theorem State.popWrite_answers : s.popWrite.answers = s.answers := rfl
@[simp] theorem State.popWrite_clockReplies : s.popWrite.clockReplies = s.clockReplies := rfl
@[simp] theorem State.popWrite_readReplies : s.popWrite.readReplies = s.readReplies := rfl
@[simp] theorem State.popWrite_writeReplies : s.popWrite.writeReplies = s.writeReplies.tail := rfl
@[simp] theorem State.popWrite_draws : s.popWrite.draws = s.draws + 1 := rfl

@[simp] theorem State.logTxn_cfg (w r : Word) : (s.logTxn w r).cfg = s.cfg := rfl
@[simp] theorem State.logTxn_acc (w r : Word) : (s.logTxn w r).acc = s.acc := rfl
@[simp] theorem State.logTxn_lastTxn (w r : Word) : (s.logTxn w r).lastTxn = some s.now := rfl
@[simp] theorem State.logTxn_busLog (w r : Word) : (s.logTxn w r).busLog = s.busLog ++ [{ time := s.now, sent := w, received := r }] := rfl
@[simp] theorem State.logTxn_drPending (w r : Word) : (s.logTxn w r).drPending = s.drPending := rfl
@[simp] theorem State.logTxn_rstLine (w r : Word) : (s.logTxn w r).rstLine = s.rstLine := rfl
@[simp] theorem State.logTxn_phase (w r : Word) : (s.logTxn w r).phase = s.phase := rfl
@[simp] theorem State.logTxn_resp (w r : Word) : (s.logTxn w r).resp = s.resp := rfl
@[simp] theorem State.logTxn_rx (w r : Word) : (s.logTxn w r).rx = s.rx := rfl
@[simp] theorem State.logTxn_tx (w r : Word) : (s.logTxn w r).tx = s.tx := rfl
@[simp] theorem State.logTxn_now (w r : Word) : (s.logTxn w r).now = s.now := rfl
@[simp] theorem State.logTxn_turns (w r : Word) : (s.logTxn w r).turns = s.turns := rfl
@[simp] theorem State.logTxn_answers (w r : Word) : (s.logTxn w r).answers = s.answers := rfl
@[simp] theorem State.logTxn_clockReplies (w r : Word) : (s.logTxn w r).clockReplies = s.clockReplies := rfl
@[simp] theorem State.logTxn_readReplies (w r : Word) : (s.logTxn w r).readReplies = s.readReplies := rfl
@[simp] theorem State.logTxn_writeReplies (w r : Word) : (s.logTxn w r).writeReplies = s.writeReplies := rfl
@[simp] theorem State.logTxn_draws (w r : Word) : (s.logTxn w r).draws = s.draws := rfl
@[simp] theorem State.logTxn_nextTurn (w r : Word) : (s.logTxn w r).nextTurn = s.nextTurn := rfl
@[simp] theorem State.logTxn_clockOk (w r : Word) : (s.logTxn w r).clockOk = s.clockOk := rfl
@[simp] theorem State.logTxn_readOk (w r : Word) : (s.logTxn w r).readOk = s.readOk := rfl
@[simp] theorem State.logTxn_writeOk (w r : Word) : (s.logTxn w r).writeOk = s.writeOk := rfl

@[simp] theorem State.raiseFault_cfg (k : ErrorKind) : (s.raiseFault k).cfg = s.cfg := rfl
@[simp] theorem State.raiseFault_acc (k : ErrorKind) : (s.raiseFault k).acc = s.acc := rfl
@[simp] theorem State.raiseFault_lastTxn (k : ErrorKind) : (s.raiseFault k).lastTxn = s.lastTxn := rfl
@[simp] theorem State.raiseFault_busLog (k : ErrorKind) : (s.raiseFault k).busLog = s.busLog := rfl
@[simp] theorem State.raiseFault_drPending (k : ErrorKind) : (s.raiseFault k).drPending = s.drPending := rfl
@[simp] theorem State.raiseFault_rstLine (k : ErrorKind) : (s.raiseFault k).rstLine = s.rstLine := rfl
@[simp] theorem State.raiseFault_phase (k : ErrorKind) : (s.raiseFault k).phase = .fault k := rfl
@[simp] theorem State.raiseFault_resp (k : ErrorKind) : (s.raiseFault k).resp = s.resp := rfl
@[simp] theorem State.raiseFault_rx (k : ErrorKind) : (s.raiseFault k).rx = s.rx := rfl
@[simp] theorem State.raiseFault_tx (k : ErrorKind) : (s.raiseFault k).tx = s.tx := rfl
@[simp] theorem State.raiseFault_now (k : ErrorKind) : (s.raiseFault k).now = s.now := rfl
@[simp] theorem State.raiseFault_turns (k : ErrorKind) : (s.raiseFault k).turns = s.turns := rfl
@[simp] theorem State.raiseFault_answers (k : ErrorKind) : (s.raiseFault k).answers = s.answers := rfl
@[simp] theorem State.raiseFault_clockReplies (k : ErrorKind) : (s.raiseFault k).clockReplies = s.clockReplies := rfl
@[simp] theorem State.raiseFault_readReplies (k : ErrorKind) : (s.raiseFault k).readReplies = s.readReplies := rfl
@[simp] theorem State.raiseFault_writeReplies (k : ErrorKind) : (s.raiseFault k).writeReplies = s.writeReplies := rfl
@[simp] theorem State.raiseFault_draws (k : ErrorKind) : (s.raiseFault k).draws = s.draws := rfl
@[simp] theorem State.raiseFault_nextTurn (k : ErrorKind) : (s.raiseFault k).nextTurn = s.nextTurn := rfl
@[simp] theorem State.raiseFault_clockOk (k : ErrorKind) : (s.raiseFault k).clockOk = s.clockOk := rfl
@[simp] theorem State.raiseFault_readOk (k : ErrorKind) : (s.raiseFault k).readOk = s.readOk := rfl
@[simp] theorem State.raiseFault_writeOk (k : ErrorKind) : (s.raiseFault k).writeOk = s.writeOk := rfl
@[simp] theorem State.raiseFault_answer (k : ErrorKind) (w' : Word) : (s.raiseFault k).answer w' = s.answer w' := rfl

@[simp] theorem State.latchEdge_cfg : s.latchEdge.cfg = s.cfg := rfl
@[simp] theorem State.latchEdge_acc : s.latchEdge.acc = s.acc := rfl
@[simp] theorem State.latchEdge_lastTxn : s.latchEdge.lastTxn = s.lastTxn := rfl
@[simp] theorem State.latchEdge_busLog : s.latchEdge.busLog = s.busLog := rfl
@[simp] theorem State.latchEdge_drPending : s.latchEdge.drPending = true := rfl
@[simp] theorem State.latchEdge_rstLine : s.latchEdge.rstLine = s.rstLine := rfl
@[simp] theorem State.latchEdge_phase : s.latchEdge.phase = s.phase := rfl
@[simp] theorem State.latchEdge_resp : s.latchEdge.resp = s.resp := rfl
@[simp] theorem State.latchEdge_rx : s.latchEdge.rx = s.rx := rfl
@[simp] theorem State.latchEdge_tx : s.latchEdge.tx = s.tx := rfl
@[simp] theorem State.latchEdge_now : s.latchEdge.now = s.now := rfl
@[simp] theorem State.latchEdge_turns : s.latchEdge.turns = s.turns := rfl
@[simp] theorem State.latchEdge_answers : s.latchEdge.answers = s.answers := rfl
@[simp] theorem State.latchEdge_clockReplies : s.latchEdge.clockReplies = s.clockReplies := rfl
@[simp] theorem State.latchEdge_readReplies : s.latchEdge.readReplies = s.readReplies := rfl
@[simp] theorem State.latchEdge_writeReplies : s.latchEdge.writeReplies = s.writeReplies := rfl
@[simp] theorem State.latchEdge_draws : s.latchEdge.draws = s.draws := rfl
@[simp] theorem State.latchEdge_nextTurn : s.latchEdge.nextTurn = s.nextTurn := rfl
@[simp] theorem State.latchEdge_clockOk : s.latchEdge.clockOk = s.clockOk := rfl
@[simp] theorem State.latchEdge_readOk : s.latchEdge.readOk = s.readOk := rfl
@[simp] theorem State.latchEdge_writeOk : s.latchEdge.writeOk = s.writeOk := rfl
@[simp] theorem State.latchEdge_answer (w' : Word) : s.latchEdge.answer w' = s.answer w' := rfl

@[simp] theorem State.clearEdge_cfg : s.clearEdge.cfg = s.cfg := rfl
@[simp] theorem State.clearEdge_acc : s.clearEdge.acc = s.acc := rfl
@[simp] theorem State.clearEdge_lastTxn : s.clearEdge.lastTxn = s.lastTxn := rfl
@[simp] theorem State.clearEdge_busLog : s.clearEdge.busLog = s.busLog := rfl
@[simp] theorem State.clearEdge_drPending : s.clearEdge.drPending = false := rfl
@[simp] theorem State.clearEdge_rstLine : s.clearEdge.rstLine = s.rstLine := rfl
@[simp] theorem State.clearEdge_phase : s.clearEdge.phase = s.phase := rfl
@[simp] theorem State.clearEdge_resp : s.clearEdge.resp = s.resp := rfl
@[simp] theorem State.clearEdge_rx : s.clearEdge.rx = s.rx := rfl
@[simp] theorem State.clearEdge_tx : s.clearEdge.tx = s.tx := rfl
@[simp] theorem State.clearEdge_now : s.clearEdge.now = s.now := rfl
@[simp] theorem State.clearEdge_turns : s.clearEdge.turns = s.turns := rfl
@[simp] theorem State.clearEdge_answers : s.clearEdge.answers = s.answers := rfl
@[simp] theorem State.clearEdge_clockReplies : s.clearEdge.clockReplies = s.clockReplies := rfl
@[simp] theorem State.clearEdge_readReplies : s.clearEdge.readReplies = s.readReplies := rfl
@[simp] theorem State.clearEdge_writeReplies : s.clearEdge.writeReplies = s.writeReplies := rfl
@[simp] theorem State.clearEdge_draws : s.clearEdge.draws = s.draws := rfl
@[simp] theorem State.clearEdge_nextTurn : s.clearEdge.nextTurn = s.nextTurn := rfl
@[simp] theorem State.clearEdge_clockOk : s.clearEdge.clockOk = s.clockOk := rfl
@[simp] theorem State.clearEdge_readOk : s.clearEdge.readOk = s.readOk := rfl
@[simp] theorem State.clearEdge_writeOk : s.clearEdge.writeOk = s.writeOk := rfl
@[simp] theorem State.clearEdge_answer (w' : Word) : s.clearEdge.answer w' = s.answer w' := rfl

end Sys2Proof.Machine
end

