-- ==== Sys2Proof/Laws/Ops.lean ====
section
/-! SUPPORT. What each shared operation can do, said once: the clock query, the streams, one transaction with its continuation,
and the run of an instruction in the running loop. -/

namespace Sys2Proof.Machine

/-! ## The clock query -/

theorem withClock_ok {s : State} (h : s.clockOk = true) (k : State → State) : withClock k s = k s.popClock := by
  simp [withClock, h]

theorem withClock_err {s : State} (h : s.clockOk = false) (k : State → State) :
    withClock k s = s.popClock.raiseFault .clockError := by
  simp [withClock, h]

/-- A clock query answers and the step goes on, or it fails and the fault is raised. -/
theorem withClock_cases (k : State → State) (s : State) :
    (s.clockOk = true ∧ withClock k s = k s.popClock) ∨
      (s.clockOk = false ∧ withClock k s = s.popClock.raiseFault .clockError) := by
  cases h : s.clockOk
  · exact .inr ⟨rfl, withClock_err h k⟩
  · exact .inl ⟨rfl, withClock_ok h k⟩

theorem elapsed_iff {d t0 now : Nat} : elapsed d t0 now = true ↔ t0 + d ≤ now := by simp [elapsed]

theorem intervalOver_iff {tMin now : Nat} {last : Option Nat} :
    intervalOver tMin last now = true ↔ ∀ t0, last = some t0 → t0 + tMin ≤ now := by
  cases last <;> simp [intervalOver, elapsed]

/-! ## The streams -/

theorem txFits_iff {tx : List Byte} {n : Nat} : txFits tx n = true ↔ tx.length + n ≤ Config.txCap := by
  simp [txFits]

/-- A write appends the whole list, when the transport takes it and it fits, or changes `tx` not at all. -/
theorem State.txWrite_cases (s : State) (bs : List Byte) :
    (s.writeOk = true ∧ s.tx.length + bs.length ≤ Config.txCap ∧ (s.txWrite bs).2 = s.popWrite.setTx (s.tx ++ bs)) ∨
      ((s.writeOk = false ∨ Config.txCap < s.tx.length + bs.length) ∧ (s.txWrite bs).2 = s.popWrite) := by
  unfold State.txWrite
  by_cases h : s.writeOk = true ∧ txFits s.tx bs.length = true
  · rw [if_pos (by simpa using h)]
    exact .inl ⟨h.1, txFits_iff.1 h.2, rfl⟩
  · rw [if_neg (by simpa using h)]
    refine .inr ⟨?_, rfl⟩
    cases hw : s.writeOk
    · exact .inl rfl
    · exact .inr (by simpa [hw, txFits] using h)

/-- A write's result: true exactly when the transport takes it and it fits. -/
theorem State.txWrite_result (s : State) (bs : List Byte) :
    (s.txWrite bs).1 = true ↔ s.writeOk = true ∧ s.tx.length + bs.length ≤ Config.txCap := by
  rw [← txFits_iff]
  unfold State.txWrite
  split <;> simp_all

/-- A read removes at most `n` bytes from the head, or fails and gives none. -/
theorem State.rxRead_cases (s : State) (n : Nat) :
    (s.readOk = true ∧ s.rxRead n = (s.rx.take n, s.popRead.setRx (s.rx.drop n))) ∨
      (s.readOk = false ∧ s.rxRead n = ([], s.popRead)) := by
  cases h : s.readOk <;> simp [State.rxRead, h]

@[simp] theorem State.txWrite_cfg (s : State) (bs : List Byte) : (s.txWrite bs).2.cfg = s.cfg := by
  rcases s.txWrite_cases bs with ⟨-, -, h⟩ | ⟨-, h⟩ <;> rw [h] <;> rfl
@[simp] theorem State.txWrite_acc (s : State) (bs : List Byte) : (s.txWrite bs).2.acc = s.acc := by
  rcases s.txWrite_cases bs with ⟨-, -, h⟩ | ⟨-, h⟩ <;> rw [h] <;> rfl
@[simp] theorem State.txWrite_lastTxn (s : State) (bs : List Byte) : (s.txWrite bs).2.lastTxn = s.lastTxn := by
  rcases s.txWrite_cases bs with ⟨-, -, h⟩ | ⟨-, h⟩ <;> rw [h] <;> rfl
@[simp] theorem State.txWrite_busLog (s : State) (bs : List Byte) : (s.txWrite bs).2.busLog = s.busLog := by
  rcases s.txWrite_cases bs with ⟨-, -, h⟩ | ⟨-, h⟩ <;> rw [h] <;> rfl
@[simp] theorem State.txWrite_drPending (s : State) (bs : List Byte) : (s.txWrite bs).2.drPending = s.drPending := by
  rcases s.txWrite_cases bs with ⟨-, -, h⟩ | ⟨-, h⟩ <;> rw [h] <;> rfl
@[simp] theorem State.txWrite_rstLine (s : State) (bs : List Byte) : (s.txWrite bs).2.rstLine = s.rstLine := by
  rcases s.txWrite_cases bs with ⟨-, -, h⟩ | ⟨-, h⟩ <;> rw [h] <;> rfl
@[simp] theorem State.txWrite_phase (s : State) (bs : List Byte) : (s.txWrite bs).2.phase = s.phase := by
  rcases s.txWrite_cases bs with ⟨-, -, h⟩ | ⟨-, h⟩ <;> rw [h] <;> rfl
@[simp] theorem State.txWrite_resp (s : State) (bs : List Byte) : (s.txWrite bs).2.resp = s.resp := by
  rcases s.txWrite_cases bs with ⟨-, -, h⟩ | ⟨-, h⟩ <;> rw [h] <;> rfl
@[simp] theorem State.txWrite_rx (s : State) (bs : List Byte) : (s.txWrite bs).2.rx = s.rx := by
  rcases s.txWrite_cases bs with ⟨-, -, h⟩ | ⟨-, h⟩ <;> rw [h] <;> rfl
@[simp] theorem State.txWrite_now (s : State) (bs : List Byte) : (s.txWrite bs).2.now = s.now := by
  rcases s.txWrite_cases bs with ⟨-, -, h⟩ | ⟨-, h⟩ <;> rw [h] <;> rfl
@[simp] theorem State.txWrite_turns (s : State) (bs : List Byte) : (s.txWrite bs).2.turns = s.turns := by
  rcases s.txWrite_cases bs with ⟨-, -, h⟩ | ⟨-, h⟩ <;> rw [h] <;> rfl
@[simp] theorem State.txWrite_answers (s : State) (bs : List Byte) : (s.txWrite bs).2.answers = s.answers := by
  rcases s.txWrite_cases bs with ⟨-, -, h⟩ | ⟨-, h⟩ <;> rw [h] <;> rfl
@[simp] theorem State.txWrite_clockReplies (s : State) (bs : List Byte) : (s.txWrite bs).2.clockReplies = s.clockReplies := by
  rcases s.txWrite_cases bs with ⟨-, -, h⟩ | ⟨-, h⟩ <;> rw [h] <;> rfl
@[simp] theorem State.txWrite_readReplies (s : State) (bs : List Byte) : (s.txWrite bs).2.readReplies = s.readReplies := by
  rcases s.txWrite_cases bs with ⟨-, -, h⟩ | ⟨-, h⟩ <;> rw [h] <;> rfl

/-- A write keeps `tx` within its ceiling. -/
theorem State.txWrite_bound {s : State} (h : s.tx.length ≤ Config.txCap) (bs : List Byte) :
    (s.txWrite bs).2.tx.length ≤ Config.txCap := by
  rcases s.txWrite_cases bs with ⟨-, h1, h2⟩ | ⟨-, h2⟩ <;> rw [h2]
  · simpa using h1
  · exact h

/-! ## One transaction -/

theorem finishHandshake_commit {f : ConfigField} {cand : FwConfig} {rem : List Byte} {r : Word} {s : State}
    (h : mscDecode r = cand.mscCtrl) :
    finishHandshake f cand rem r s = ((s.setCfg cand).pushResp (.cfg f)).setPhase (.feed rem) := by
  simp [finishHandshake, h]

theorem finishHandshake_drop {f : ConfigField} {cand : FwConfig} {rem : List Byte} {r : Word} {s : State}
    (h : mscDecode r ≠ cand.mscCtrl) : finishHandshake f cand rem r s = s.setPhase (.feed rem) := by
  simp [finishHandshake, h]

@[simp] theorem afterXfer_acc (r : Word) (s : State) : (afterXfer r s).acc = s.acc := by
  unfold afterXfer
  split <;> try rfl
  · unfold finishHandshake
    split <;> rfl
  · unfold takeBurstWord emitBurst
    split <;> simp
@[simp] theorem afterXfer_lastTxn (r : Word) (s : State) : (afterXfer r s).lastTxn = s.lastTxn := by
  unfold afterXfer
  split <;> try rfl
  · unfold finishHandshake
    split <;> rfl
  · unfold takeBurstWord emitBurst
    split <;> simp
@[simp] theorem afterXfer_busLog (r : Word) (s : State) : (afterXfer r s).busLog = s.busLog := by
  unfold afterXfer
  split <;> try rfl
  · unfold finishHandshake
    split <;> rfl
  · unfold takeBurstWord emitBurst
    split <;> simp
@[simp] theorem afterXfer_rstLine (r : Word) (s : State) : (afterXfer r s).rstLine = s.rstLine := by
  unfold afterXfer
  split <;> try rfl
  · unfold finishHandshake
    split <;> rfl
  · unfold takeBurstWord emitBurst
    split <;> simp
@[simp] theorem afterXfer_rx (r : Word) (s : State) : (afterXfer r s).rx = s.rx := by
  unfold afterXfer
  split <;> try rfl
  · unfold finishHandshake
    split <;> rfl
  · unfold takeBurstWord emitBurst
    split <;> simp
@[simp] theorem afterXfer_now (r : Word) (s : State) : (afterXfer r s).now = s.now := by
  unfold afterXfer
  split <;> try rfl
  · unfold finishHandshake
    split <;> rfl
  · unfold takeBurstWord emitBurst
    split <;> simp
@[simp] theorem afterXfer_turns (r : Word) (s : State) : (afterXfer r s).turns = s.turns := by
  unfold afterXfer
  split <;> try rfl
  · unfold finishHandshake
    split <;> rfl
  · unfold takeBurstWord emitBurst
    split <;> simp
@[simp] theorem afterXfer_answers (r : Word) (s : State) : (afterXfer r s).answers = s.answers := by
  unfold afterXfer
  split <;> try rfl
  · unfold finishHandshake
    split <;> rfl
  · unfold takeBurstWord emitBurst
    split <;> simp
@[simp] theorem afterXfer_clockReplies (r : Word) (s : State) : (afterXfer r s).clockReplies = s.clockReplies := by
  unfold afterXfer
  split <;> try rfl
  · unfold finishHandshake
    split <;> rfl
  · unfold takeBurstWord emitBurst
    split <;> simp
@[simp] theorem afterXfer_readReplies (r : Word) (s : State) : (afterXfer r s).readReplies = s.readReplies := by
  unfold afterXfer
  split <;> try rfl
  · unfold finishHandshake
    split <;> rfl
  · unfold takeBurstWord emitBurst
    split <;> simp

/-- The phase after a transaction, where the continuation changes nothing but the phase (43_firmware_loop R116, R117, R122,
R123): the phase before, the phase after, the time and the answer. -/
inductive BusAdvance (now : Nat) (r : Word) : Phase → Phase → Prop
  | cfgW1 (f : ConfigField) (cand : FwConfig) (rem : List Byte) : BusAdvance now r (.cfgW1 f cand rem) (.cfgW2 f cand rem)
  | cfgW2 (f : ConfigField) (cand : FwConfig) (rem : List Byte) :
    BusAdvance now r (.cfgW2 f cand rem) (.cfgSettle f cand now rem)
  | cfgR1 (f : ConfigField) (cand : FwConfig) (rem : List Byte) : BusAdvance now r (.cfgR1 f cand rem) (.cfgR2 f cand rem)
  | cfgR2 (f : ConfigField) (cand : FwConfig) (rem : List Byte) (h : mscDecode r ≠ cand.mscCtrl) :
    BusAdvance now r (.cfgR2 f cand rem) (.feed rem)
  | rqr1 (v : Word) (rem : List Byte) : BusAdvance now r (.rqr1 v rem) (.rqr2 v rem)
  | burstCmd (p : Precision) (sel : BurstSel) : BusAdvance now r (.burstCmd p sel) (.burstWord p sel [])
  | burstWord (p : Precision) (sel : BurstSel) (ws : List Word) (h : ws.length + 1 ≠ frameWords p) :
    BusAdvance now r (.burstWord p sel ws) (.burstWord p sel (ws ++ [r]))

/-- What follows a transaction in a phase that sends a word: only the phase advances, the handshake commits, the response of an
RQR is queued, or the burst is emitted. -/
theorem afterXfer_cases {s : State} {w : Word} (h : sentWord s.phase = some w) (r : Word) :
    (∃ p, BusAdvance s.now r s.phase p ∧ afterXfer r s = s.setPhase p) ∨
    (∃ f cand rem, s.phase = .cfgR2 f cand rem ∧ mscDecode r = cand.mscCtrl ∧
      afterXfer r s = ((s.setCfg cand).pushResp (.cfg f)).setPhase (.feed rem)) ∨
    (∃ v rem, s.phase = .rqr2 v rem ∧ afterXfer r s = (s.pushResp (.rqr r)).setPhase (.feed rem)) ∨
    (∃ p sel ws, s.phase = .burstWord p sel ws ∧ ws.length + 1 = frameWords p ∧
      afterXfer r s = emitBurst p sel (ws ++ [r]) s) := by
  unfold afterXfer
  cases hp : s.phase <;> rw [hp] at h <;> simp only [sentWord, reduceCtorEq] at h <;> simp only
  case cfgW1 => exact .inl ⟨_, .cfgW1 .., rfl⟩
  case cfgW2 => exact .inl ⟨_, .cfgW2 .., rfl⟩
  case cfgR1 => exact .inl ⟨_, .cfgR1 .., rfl⟩
  case cfgR2 f cand rem =>
    by_cases hm : mscDecode r = cand.mscCtrl
    · exact .inr (.inl ⟨_, _, _, rfl, hm, finishHandshake_commit hm⟩)
    · exact .inl ⟨_, .cfgR2 _ _ _ hm, finishHandshake_drop hm⟩
  case rqr1 => exact .inl ⟨_, .rqr1 .., rfl⟩
  case rqr2 => exact .inr (.inr (.inl ⟨_, _, rfl, rfl⟩))
  case burstCmd => exact .inl ⟨_, .burstCmd .., rfl⟩
  case burstWord p sel ws =>
    unfold takeBurstWord
    split
    · rename_i hl
      exact .inr (.inr (.inr ⟨_, _, _, rfl, by simpa using hl, rfl⟩))
    · rename_i hl
      exact .inl ⟨_, .burstWord _ _ _ (by simpa using hl), rfl⟩

/-- A transaction's own effect: the log and the time of the last transaction. The rest is the phase's continuation. -/
theorem transact_busLog (w : Word) (s : State) :
    (transact w s).busLog = s.busLog ++ [{ time := s.now, sent := w, received := s.answer w }] := by
  simp [transact]

theorem transact_lastTxn (w : Word) (s : State) : (transact w s).lastTxn = some s.now := by
  simp [transact]

/-- XFER ends in the fault, in a hold that changes nothing, or in the transaction. -/
theorem xfer_cases (w : Word) (s : State) :
    (s.clockOk = false ∧ xfer w s = s.popClock.raiseFault .clockError) ∨
      (s.clockOk = true ∧ intervalOver Config.tMin s.lastTxn s.now = false ∧ xfer w s = s.popClock) ∨
      (s.clockOk = true ∧ intervalOver Config.tMin s.lastTxn s.now = true ∧
        xfer w s = transact w s.popClock) := by
  rcases withClock_cases (fun s => if intervalOver Config.tMin s.lastTxn s.now then transact w s else s) s with
    ⟨h, e⟩ | ⟨h, e⟩
  · cases hi : intervalOver Config.tMin s.lastTxn s.now
    · exact .inr (.inl ⟨h, rfl, by simp [xfer, e, hi]⟩)
    · exact .inr (.inr ⟨h, rfl, by simp [xfer, e, hi]⟩)
  · exact .inl ⟨h, e⟩

/-! ## An instruction in the running loop -/

theorem whileRunning_next {s : State} (h : s.phase.isFault = false) (k : State → State) :
    whileRunning k s = .next (k s) := by
  unfold whileRunning
  split
  · rename_i kind hk
    rw [hk] at h
    cases h
  · rfl

theorem whileRunning_fault {s : State} {kind : ErrorKind} (h : s.phase = .fault kind) (k : State → State) :
    whileRunning k s = .fault (.loopFaulted kind) := by
  simp [whileRunning, h]

/-- A phase that sends a word is no fault. -/
theorem isFault_of_sentWord {p : Phase} {w : Word} (h : sentWord p = some w) : p.isFault = false := by
  cases p <;> first | rfl | cases h

end Sys2Proof.Machine
end

