-- ==== Sys2Proof/Laws/PerInstr.lean ====
section
/-! SUPPORT. One lemma per instruction: a well-formed instruction encodes to the number of bits its row of spec/opcode_table.json
gives it, in the code of its format (30_encoding R56, R62, R81). -/

namespace Sys2Proof.Laws.EncodedWidth

/-- The bits of a row of the opcode table: the length of its `encoding`. -/
def rowBits : Instr → Nat
  | .burstCmd => 16
  | .fill => 16
  | .readReq _ => 16
  | .writeByte _ _ => 16
  | .cfgBurstEn _ => 24
  | .cfgBurst32 _ => 24
  | .cfgBurstSel _ => 24
  | .cfgLinGComp _ => 24
  | .cfgPop _ => 24
  | .cfgBandwidth _ => 24
  | .cfgSyncMode _ => 24
  | .cfgSyncPol _ => 24
  | .cfgDrPol _ => 24
  | .rqr _ => 24
  | .b16 _ _ => 176
  | .b32 _ _ => 272
  | .rst => 8
  | .err _ => 16

/-- The bits of a code. -/
def codeBits : Code → Nat
  | .bus _ => 16
  | .msg bs => 8 * bs.length

def Statement (i : Instr) : Prop := i.wf = true → codeBits (encode i) = rowBits i

theorem burstCmd : Statement .burstCmd := fun _ => rfl
theorem fill : Statement .fill := fun _ => rfl
theorem readReq (addr : Byte) : Statement (.readReq addr) := fun _ => rfl
theorem writeByte (target : BitVec 7) (data : Byte) : Statement (.writeByte target data) := fun _ => rfl
theorem cfgBurstEn (v : Bool) : Statement (.cfgBurstEn v) := fun _ => rfl
theorem cfgBurst32 (v : Burst32) : Statement (.cfgBurst32 v) := fun _ => rfl
theorem cfgBurstSel (v : BurstSel) : Statement (.cfgBurstSel v) := fun _ => rfl
theorem cfgLinGComp (v : Toggle) : Statement (.cfgLinGComp v) := fun _ => rfl
theorem cfgPop (v : Toggle) : Statement (.cfgPop v) := fun _ => rfl
theorem cfgBandwidth (v : Bandwidth) : Statement (.cfgBandwidth v) := fun _ => rfl
theorem cfgSyncMode (v : SyncMode) : Statement (.cfgSyncMode v) := fun _ => rfl
theorem cfgSyncPol (v : Polarity) : Statement (.cfgSyncPol v) := fun _ => rfl
theorem cfgDrPol (v : Polarity) : Statement (.cfgDrPol v) := fun _ => rfl
theorem rqr (v : Word) : Statement (.rqr v) := fun _ => rfl

theorem b16 (sel : BurstSel) (ws : List Word) : Statement (.b16 sel ws) := fun h => by
  have h : ws.length = 10 := by simpa [Instr.wf] using h
  simp only [codeBits, encode, serialize, List.length_cons, length_flatMap_wordBytes, h, rowBits]

theorem b32 (sel : BurstSel) (ws : List Word) : Statement (.b32 sel ws) := fun h => by
  have h : ws.length = 16 := by simpa [Instr.wf] using h
  simp only [codeBits, encode, serialize, List.length_cons, length_flatMap_wordBytes, h, rowBits]

theorem rst : Statement .rst := fun _ => rfl
theorem err (tag : Byte) : Statement (.err tag) := fun _ => rfl

end Sys2Proof.Laws.EncodedWidth
end

