-- ==== Sys2Proof/Laws/Step.lean ====
section
/-! SUPPORT. The step: which instruction a word is, what each phase's step is, and what a flush does. -/

namespace Sys2Proof.Machine

/-- The word built from a target and a byte is the word they were read from, when its bit 15 is set. -/
theorem writeByteWord_extract {w : Word} (h : w.getLsbD 15 = true) :
    writeByteWord (w.extractLsb' 8 7) (loByte w) = w := by
  unfold writeByteWord loByte
  ext i hi
  have : i < 16 := hi
  interval_cases i <;> simp_all [← BitVec.getLsbD_eq_getElem]

/-- The read request for the high byte of a word whose low byte is 0 is that word. -/
theorem request_hiByte {w : Word} (h : loByte w = 0x00#8) : request (hiByte w) = w := by
  have hb : ∀ i, i < 8 → w.getLsbD i = false := by
    intro i hi
    have := congrArg (fun v : Byte => v.getLsbD i) h
    simpa [loByte, hi] using this
  unfold request hiByte
  ext i hi
  have : i < 16 := hi
  interval_cases i <;> simp_all [← BitVec.getLsbD_eq_getElem]

/-- Every instruction a bus word decodes to makes the transaction of that word. -/
theorem exec_decodeBus {w : Word} {i : Instr} (h : decodeBus w = .ok i) (s : State) : exec i s = runXfer w s := by
  unfold decodeBus at h
  split at h
  · cases h; subst w; rfl
  · split at h
    · cases h; subst w; rfl
    · split at h
      · cases h
        show runXfer (writeByteWord _ _) s = _
        rw [writeByteWord_extract ‹_›]
      · split at h
        · cases h
          show runXfer (request _) s = _
          rw [request_hiByte ‹_›]
        · cases h

/-- A bus phase makes the transaction of its word, whether or not a row of the table lists the word. -/
theorem sendStep_eq (w : Word) (s : State) : sendStep w s = runXfer w s := by
  unfold sendStep
  split
  · exact exec_decodeBus ‹_› s
  · rfl

/-- The step of a phase that sends a word is that word's transaction. -/
theorem fwStep_of_sentWord {s : State} {w : Word} (h : sentWord s.phase = some w) : fwStep s = .next (xfer w s) := by
  have hf := isFault_of_sentWord h
  unfold fwStep
  cases hp : s.phase <;> rw [hp] at h <;> simp only [sentWord, Option.some.injEq, reduceCtorEq] at h <;> subst h <;>
    simp only [sendStep_eq, runXfer, whileRunning_next hf]

/-- A step of the machine when the loop's turn is next. -/
theorem step_fw {s : State} (h : s.nextTurn = .fw) : step s = fwStep s.popTurn := by simp [step, h, takeTurn]

theorem intervalOver_eq_true {s : State} : intervalOver Config.tMin s.lastTxn s.now = true ↔ IntervalOver s := by
  rw [intervalOver_iff, IntervalOver]
  cases h : s.lastTxn <;> simp

/-- In a phase that sends a word, with the clock answering and the minimum interval over, the step is the transaction. -/
theorem step_of_ready {s : State} {w : Word} (h : ReadyToSend s) (hw : sentWord s.phase = some w) :
    step s = .next (transact w s.popTurn.popClock) := by
  rw [step_fw h.1.1, fwStep_of_sentWord (s := s.popTurn) hw]
  rcases xfer_cases w s.popTurn with ⟨a, _⟩ | ⟨_, a, _⟩ | ⟨_, _, e⟩
  · rw [h.1.2] at a; cases a
  · have hi : intervalOver Config.tMin s.lastTxn s.now = true := intervalOver_eq_true.2 h.2
    rw [State.popTurn_lastTxn, State.popTurn_now, hi] at a
    cases a
  · rw [e]

/-- A step of the machine when an agent of the environment moves. -/
theorem step_env {s : State} (h : s.nextTurn ≠ .fw) : step s = .next (envMove s.nextTurn s.popTurn) := by
  unfold step
  cases ht : s.nextTurn with
  | fw => exact absurd ht h
  | hostWrite bs => rfl
  | hostRead n => rfl
  | drEdge => rfl
  | tick d => rfl
  | sensorAnswer r => rfl

/-- What the dispatch of a message does (43_firmware_loop R114 to R119). -/
def dispatched (m : Message) (s : State) : State :=
  match m with
  | .cfg (.burstEn v) => ackAndFeed (.cfg (.burstEn v)) (s.setBurstEnabled v)
  | .cfg f => dispatchMsc f s
  | .rqr v => s.setPhase (.rqr1 v s.phase.rem)
  | .b16 _ _ => ignoreMessage s
  | .b32 _ _ => ignoreMessage s
  | .rst => startReset s
  | .err _ => ignoreMessage s

/-- Dispatch never stops in the running loop: every message has a next state, the one `dispatched` gives. -/
theorem exec_instr (m : Message) {s : State} (h : s.phase.isFault = false) : exec m.instr s = .next (dispatched m s) := by
  have hn := whileRunning_next h
  cases m with
  | cfg f =>
    cases f <;> simp only [Message.instr, exec, execCfgBurstEn, execCfgBurst32, execCfgBurstSel, execCfgLinGComp,
      execCfgPop, execCfgBandwidth, execCfgSyncMode, execCfgSyncPol, execCfgDrPol, hn, dispatched]
  | rqr v => simp only [Message.instr, exec, execRqr, hn, dispatched]
  | b16 sel ws => simp only [Message.instr, exec, execB16, hn, dispatched]
  | b32 sel ws => simp only [Message.instr, exec, execB32, hn, dispatched]
  | rst => simp only [Message.instr, exec, execRst, hn, dispatched]
  | err tag => simp only [Message.instr, exec, execErr, hn, dispatched]

/-- A message other than RST raises no fault. -/
theorem dispatched_isFault {m : Message} (hm : m ≠ .rst) (s : State) :
    (dispatched m s).phase.isFault = false := by
  cases m with
  | cfg f => cases f <;> simp only [dispatched, dispatchMsc] <;> first | rfl | (split <;> rfl)
  | rqr v => rfl
  | b16 sel ws => rfl
  | b32 sel ws => rfl
  | rst => exact absurd rfl hm
  | err tag => rfl

/-- Dispatch in the running loop: the message's effect, or, when RST's clock query fails, the fault with the accumulator as it
was before the FEED. -/
theorem dispatchMessage_cases (acc : Accumulator) (m : Message) {s : State} (h : s.phase.isFault = false) :
    ((m ≠ .rst ∨ s.clockOk = true) ∧ dispatchMessage acc m s = exec m.instr s ∧ exec m.instr s = .next (dispatched m s)) ∨
      (m = .rst ∧ s.clockOk = false ∧
        dispatchMessage acc m s = .next ((s.setAcc acc).popClock.raiseFault .clockError)) := by
  have he := exec_instr m h
  by_cases hm : m = .rst
  · subst hm
    rcases withClock_cases (fun s => (s.setReset .low).setPhase (.rstLow s.now s.phase.rem)) s with ⟨hc, e⟩ | ⟨hc, e⟩
    · refine .inl ⟨.inr hc, ?_, he⟩
      simp only [dispatchMessage, he, dispatched, startReset, e]
      rfl
    · refine .inr ⟨rfl, hc, ?_⟩
      simp only [dispatchMessage, he, dispatched, startReset, e]
      rfl
  · refine .inl ⟨.inl hm, ?_, he⟩
    simp only [dispatchMessage, he, undoFeedOnFault, dispatched_isFault hm s, Bool.false_eq_true, if_false]

/-- Responses offered one after the other change `tx` and the write draws only. -/
theorem flush_fold (ms : List Message) (s : State) :
    ∃ tx wr n, ms.foldl (fun t m => (t.txWrite (frame m)).2) s = { s with tx := tx, writeReplies := wr, draws := n } := by
  induction ms generalizing s with
  | nil => exact ⟨s.tx, s.writeReplies, s.draws, rfl⟩
  | cons m ms ih =>
    obtain ⟨tx, wr, n, h⟩ := ih (s.txWrite (frame m)).2
    refine ⟨tx, wr, n, ?_⟩
    rw [List.foldl_cons, h]
    rcases s.txWrite_cases (frame m) with ⟨-, -, e⟩ | ⟨-, e⟩ <;> rw [e] <;> rfl

/-- All that one step of the loop can do, phase by phase, from the state in which its turn has been taken. The transactions, the
settle delay, the reset pulse, the flush and the burst check are functions of the state: their own lemmas say what they do. -/
inductive LoopStep (s : State) : State → Prop
  | topFlush : s.phase = .top → s.rx = [] → LoopStep s (s.setPhase .flush)
  | topRead : s.phase = .top → s.rx ≠ [] → s.readOk = true →
    LoopStep s ((s.popRead.setRx (s.rx.drop Config.rxChunk)).setPhase (.feed (s.rx.take Config.rxChunk)))
  | topFail : s.phase = .top → s.rx ≠ [] → s.readOk = false → LoopStep s (s.popRead.setPhase (.feed []))
  | feedNil : s.phase = .feed [] → LoopStep s (s.setPhase .flush)
  | feedConsumed (rem : List Byte) (a : Accumulator) : s.phase = .feed rem → rem ≠ [] →
    s.acc.feed rem = (.consumed, a) → LoopStep s ((s.setAcc a).setPhase .flush)
  | feedOverFull (rem rest : List Byte) (a : Accumulator) : s.phase = .feed rem → rem ≠ [] →
    s.acc.feed rem = (.overFull rest, a) → LoopStep s ((s.setAcc a).setPhase (.feed rest))
  | feedDeserError (rem rest : List Byte) (a : Accumulator) : s.phase = .feed rem → rem ≠ [] →
    s.acc.feed rem = (.deserError rest, a) → LoopStep s ((s.setAcc a).setPhase (.feed rest))
  | feedMessage (rem : List Byte) (m : Message) (rest : List Byte) (a : Accumulator) : s.phase = .feed rem → rem ≠ [] →
    s.acc.feed rem = (.success m rest, a) → (m ≠ .rst ∨ s.clockOk = true) →
    LoopStep s (dispatched m ((s.setAcc a).setPhase (.feed rest)))
  | feedFault (rem rest : List Byte) (a : Accumulator) : s.phase = .feed rem → rem ≠ [] →
    s.acc.feed rem = (.success .rst rest, a) → s.clockOk = false → LoopStep s (s.popClock.raiseFault .clockError)
  | send (w : Word) : sentWord s.phase = some w → LoopStep s (xfer w s)
  | settle (f : ConfigField) (cand : FwConfig) (t0 : Nat) (rem : List Byte) : s.phase = .cfgSettle f cand t0 rem →
    LoopStep s (settleStep f cand t0 rem s)
  | reset (t0 : Nat) (rem : List Byte) : s.phase = .rstLow t0 rem → LoopStep s (resetStep t0 rem s)
  | flush : s.phase = .flush → LoopStep s (flushStep s)
  | burstCheck : s.phase = .burstCheck → LoopStep s (burstCheckStep s)
  | fault (kind : ErrorKind) : s.phase = .fault kind → LoopStep s s

/-- A step of the loop is one of those. -/
theorem fwStep_cases {s t : State} (h : fwStep s = .next t) : LoopStep s t := by
  cases hw : sentWord s.phase with
  | some w =>
    rw [fwStep_of_sentWord hw] at h
    cases h
    exact .send w hw
  | none =>
    unfold fwStep at h
    cases hp : s.phase <;> rw [hp] at hw h <;> simp only [sentWord, reduceCtorEq] at hw <;>
      simp only [Host.Outcome.next.injEq] at h
    case top =>
      unfold topStep at h
      split at h
      · exact h ▸ .topFlush hp ‹_›
      · rcases s.rxRead_cases Config.rxChunk with ⟨h1, h2⟩ | ⟨h1, h2⟩ <;> rw [h2] at h <;> subst h
        · exact .topRead hp ‹_› h1
        · exact .topFail hp ‹_› h1
    case feed rem =>
      simp only [feedStep] at h
      split at h
      · rename_i hr
        subst hr
        cases h
        exact .feedNil hp
      · split at h
        · cases h; exact .feedConsumed _ _ hp ‹_› ‹_›
        · rename_i m rest a hf
          rcases dispatchMessage_cases s.acc m (s := (s.setAcc a).setPhase (.feed rest)) rfl with
            ⟨hc, e, e'⟩ | ⟨hm, hc, e⟩
          · rw [e, e'] at h
            cases h
            exact .feedMessage _ _ _ _ hp ‹_› hf hc
          · rw [e] at h
            cases h
            subst hm
            exact .feedFault _ _ _ hp ‹_› hf hc
        · cases h; exact .feedOverFull _ _ _ hp ‹_› ‹_›
        · cases h; exact .feedDeserError _ _ _ hp ‹_› ‹_›
    case cfgSettle => exact h ▸ .settle _ _ _ _ hp
    case rstLow => exact h ▸ .reset _ _ hp
    case flush => exact h ▸ .flush hp
    case burstCheck => exact h ▸ .burstCheck hp
    case fault => exact h ▸ .fault _ hp

/-- A step is the loop's or a move of the environment. -/
theorem step_cases {s t : State} (h : step s = .next t) :
    (s.nextTurn = .fw ∧ LoopStep s.popTurn t) ∨ (s.nextTurn ≠ .fw ∧ t = envMove s.nextTurn s.popTurn) := by
  by_cases ht : s.nextTurn = .fw
  · rw [step_fw ht] at h
    exact .inl ⟨ht, fwStep_cases h⟩
  · rw [step_env ht] at h
    cases h
    exact .inr ⟨ht, rfl⟩

end Sys2Proof.Machine
end

