-- ==== Sys2Proof/Laws/Runs.lean ====
section
/-! SUPPORT. Runs: what the environment's draws leave alone, and what one step of a run does to the clock. -/

namespace Sys2Proof.Machine

@[simp] theorem State.withDraws_cfg (s : State) (d : Draws) : (s.withDraws d).cfg = s.cfg := rfl
@[simp] theorem State.withDraws_acc (s : State) (d : Draws) : (s.withDraws d).acc = s.acc := rfl
@[simp] theorem State.withDraws_lastTxn (s : State) (d : Draws) : (s.withDraws d).lastTxn = s.lastTxn := rfl
@[simp] theorem State.withDraws_busLog (s : State) (d : Draws) : (s.withDraws d).busLog = s.busLog := rfl
@[simp] theorem State.withDraws_drPending (s : State) (d : Draws) : (s.withDraws d).drPending = s.drPending := rfl
@[simp] theorem State.withDraws_rstLine (s : State) (d : Draws) : (s.withDraws d).rstLine = s.rstLine := rfl
@[simp] theorem State.withDraws_phase (s : State) (d : Draws) : (s.withDraws d).phase = s.phase := rfl
@[simp] theorem State.withDraws_resp (s : State) (d : Draws) : (s.withDraws d).resp = s.resp := rfl
@[simp] theorem State.withDraws_rx (s : State) (d : Draws) : (s.withDraws d).rx = s.rx := rfl
@[simp] theorem State.withDraws_tx (s : State) (d : Draws) : (s.withDraws d).tx = s.tx := rfl
@[simp] theorem State.withDraws_now (s : State) (d : Draws) : (s.withDraws d).now = s.now := rfl
@[simp] theorem State.withDraws_nextTurn (s : State) (d : Draws) : (s.withDraws d).nextTurn = d.turn := rfl
@[simp] theorem State.withDraws_clockOk (s : State) (d : Draws) : (s.withDraws d).clockOk = d.clockOk := rfl
@[simp] theorem State.withDraws_readOk (s : State) (d : Draws) : (s.withDraws d).readOk = d.readOk := rfl
@[simp] theorem State.withDraws_answer (s : State) (d : Draws) (w : Word) : (s.withDraws d).answer w = d.answer := rfl

/-- A move of the environment changes only `rx`, `tx`, the latch, the clock and the settled answers. -/
theorem envMove_phase (t : Turn) (s : State) : (envMove t s).phase = s.phase := by cases t <;> rfl
theorem envMove_acc (t : Turn) (s : State) : (envMove t s).acc = s.acc := by cases t <;> rfl
theorem envMove_lastTxn (t : Turn) (s : State) : (envMove t s).lastTxn = s.lastTxn := by cases t <;> rfl
theorem envMove_cfg (t : Turn) (s : State) : (envMove t s).cfg = s.cfg := by cases t <;> rfl
theorem envMove_busLog (t : Turn) (s : State) : (envMove t s).busLog = s.busLog := by cases t <;> rfl
theorem envMove_resp (t : Turn) (s : State) : (envMove t s).resp = s.resp := by cases t <;> rfl
theorem envMove_rstLine (t : Turn) (s : State) : (envMove t s).rstLine = s.rstLine := by cases t <;> rfl
theorem envMove_now (t : Turn) (s : State) : s.now ≤ (envMove t s).now := by
  cases t <;> first | exact le_rfl | exact Nat.le_add_right _ _

/-- A step of a run in which the environment moves. -/
theorem IsRun.env {env : Nat → Draws} {r : Nat → State} (h : IsRun env r) {n : Nat} (ht : (env n).turn ≠ .fw) :
    r (n + 1) = envMove (env n).turn ((r n).withDraws (env n)).popTurn := by
  have hs := h n
  rw [step_env (s := (r n).withDraws (env n)) ht] at hs
  exact (Host.Outcome.next.inj hs).symm

/-- A step of a run in which the loop moves. -/
theorem IsRun.fw {env : Nat → Draws} {r : Nat → State} (h : IsRun env r) {n : Nat} (ht : (env n).turn = .fw) :
    LoopStep ((r n).withDraws (env n)).popTurn (r (n + 1)) := by
  have hs := h n
  rw [step_fw (s := (r n).withDraws (env n)) ht] at hs
  exact fwStep_cases hs

end Sys2Proof.Machine
end

