-- ==== Sys2Proof/Tests/Slice0.lean ====
section
/-! SUPPORT. Tests: the check of well-formedness, decoding against words written out from the encodings, the spec's vectors
(95_test_vectors), single steps, and for every statement with hypotheses a named witness that meets them. -/

namespace Sys2Proof.Tests

open Sys2Proof Sys2Proof.Machine

/-! ## Helpers -/

/-- The state of an outcome that goes on. -/
def nextOf : Host.Outcome State Fault Refusal → Option State
  | .next s => some s
  | .fault _ => none
  | .refused _ => none

/-- A small state: power-on at time 1000 in a phase, the loop's turn next, the clock and the transports answering. -/
def inPhase (p : Phase) : State :=
  { State.reset with
    now := 1000
    phase := p
    turns := [.fw]
    clockReplies := [true]
    answers := [0x00C1#16]
    readReplies := [true]
    writeReplies := [true] }

/-- The same with a last transaction and a time. -/
def timed (p : Phase) (t0 now : Nat) : State := { inPhase p with lastTxn := some t0, now := now }

/-- The same with the clock failing. -/
def clockless (p : Phase) : State := { inPhase p with clockReplies := [false] }

/-- BD-1 and BD-3 (95_test_vectors, section 2.2). -/
def bd1 : List Word :=
  [0x0000#16, 0x0010#16, 0xFFF0#16, 0x0100#16, 0x0000#16, 0x0001#16, 0x8000#16, 0x0190#16, 0x0005#16, 0x0317#16]

def bd3 : List Word :=
  [0x0000#16, 0x0001#16, 0x8000#16, 0xFFFF#16, 0x4000#16, 0x0000#16, 0xFFFF#16, 0x7FFF#16, 0x0000#16, 0x8000#16,
    0x0001#16, 0x0002#16, 0x0000#16, 0x0A00#16, 0x1234#16, 0x070E#16]

/-! ## Well-formedness: an ill-formed term for each check -/

theorem test_wf_refuses_read_of_burst_command : (Instr.readReq 0x68#8).wf = false := by decide
theorem test_wf_refuses_read_of_fill : (Instr.readReq 0x00#8).wf = false := by decide
theorem test_wf_refuses_read_with_write_bit : (Instr.readReq 0x80#8).wf = false := by decide
theorem test_wf_refuses_nine_words : (Instr.b16 .sel0 (List.replicate 9 0#16)).wf = false := by decide
theorem test_wf_refuses_fifteen_words : (Instr.b32 .sel0 (List.replicate 15 0#16)).wf = false := by decide
theorem test_message_wf_refuses_eleven_words : (Message.b16 .sel1 (List.replicate 11 0#16)).wf = false := by decide
theorem test_message_wf_refuses_ten_words : (Message.b32 .sel1 (List.replicate 10 0#16)).wf = false := by decide

/-! ## Decoding: the words written out bit by bit from 30_encoding R57 to R68 -/

theorem test_decode_burstCmd : decode (.bus 0b0110100000000000#16) = .ok .burstCmd := by decide
theorem test_decode_fill : decode (.bus 0b0000000000000000#16) = .ok .fill := by decide
theorem test_decode_readReq : decode (.bus 0b0110000000000000#16) = .ok (.readReq 0b01100000#8) := by decide
theorem test_decode_writeByte :
    decode (.bus 0b1110000111000001#16) = .ok (.writeByte 0b1100001#7 0b11000001#8) := by decide
theorem test_decode_cfgBurstEn :
    decode (.msg [0b00000000#8, 0b00000000#8, 0b00000001#8]) = .ok (.cfgBurstEn true) := by decide
theorem test_decode_cfgBurst32 :
    decode (.msg [0b00000000#8, 0b00000001#8, 0b00000001#8]) = .ok (.cfgBurst32 .enabled) := by decide
theorem test_decode_cfgBurstSel :
    decode (.msg [0b00000000#8, 0b00000010#8, 0b00000001#8]) = .ok (.cfgBurstSel .sel1) := by decide
theorem test_decode_cfgLinGComp :
    decode (.msg [0b00000000#8, 0b00000011#8, 0b00000000#8]) = .ok (.cfgLinGComp .disabled) := by decide
theorem test_decode_cfgPop :
    decode (.msg [0b00000000#8, 0b00000100#8, 0b00000000#8]) = .ok (.cfgPop .disabled) := by decide
theorem test_decode_cfgBandwidth :
    decode (.msg [0b00000000#8, 0b00000101#8, 0b00000001#8]) = .ok (.cfgBandwidth .narrow) := by decide
theorem test_decode_cfgSyncMode :
    decode (.msg [0b00000000#8, 0b00000110#8, 0b00000010#8]) = .ok (.cfgSyncMode .mode2) := by decide
theorem test_decode_cfgSyncPol :
    decode (.msg [0b00000000#8, 0b00000111#8, 0b00000001#8]) = .ok (.cfgSyncPol .pos) := by decide
theorem test_decode_cfgDrPol :
    decode (.msg [0b00000000#8, 0b00001000#8, 0b00000000#8]) = .ok (.cfgDrPol .neg) := by decide
theorem test_decode_rqr :
    decode (.msg [0b00000001#8, 0b00110100#8, 0b00010010#8]) = .ok (.rqr 0x1234#16) := by decide
theorem test_decode_rst : decode (.msg [0b00000100#8]) = .ok .rst := by decide
theorem test_decode_err : decode (.msg [0b00000101#8, 0b00000111#8]) = .ok (.err 0x07#8) := by decide

/-- FR-9: the 22 bytes of `B16 Sel0 [BD-1 words]`. -/
theorem test_decode_b16 :
    decode (.msg [0x02#8, 0x00#8, 0x00#8, 0x00#8, 0x10#8, 0x00#8, 0xF0#8, 0xFF#8, 0x00#8, 0x01#8, 0x00#8, 0x00#8,
      0x01#8, 0x00#8, 0x00#8, 0x80#8, 0x90#8, 0x01#8, 0x05#8, 0x00#8, 0x17#8, 0x03#8]) = .ok (.b16 .sel0 bd1) := by
  decide

/-- R66: tag, selector, sixteen words, each low byte first. -/
theorem test_decode_b32 :
    decode (.msg [0x03#8, 0x01#8, 0x00#8, 0x00#8, 0x01#8, 0x00#8, 0x00#8, 0x80#8, 0xFF#8, 0xFF#8, 0x00#8, 0x40#8,
      0x00#8, 0x00#8, 0xFF#8, 0xFF#8, 0xFF#8, 0x7F#8, 0x00#8, 0x00#8, 0x00#8, 0x80#8, 0x01#8, 0x00#8, 0x02#8, 0x00#8,
      0x00#8, 0x00#8, 0x00#8, 0x0A#8, 0x34#8, 0x12#8, 0x0E#8, 0x07#8]) = .ok (.b32 .sel1 bd3) := by decide

/-- R57: a request with bit 15 set reads as a write byte. R61: a word no row lists. -/
theorem test_decode_high_request_is_write : decode (.bus 0xFF00#16) = .ok (.writeByte 0x7F#7 0x00#8) := by decide
theorem test_decode_rejects_unlisted_word : decode (.bus 0x1234#16) = .rejected .unlistedBusWord := by decide

/-- DS-1 to DS-10: what fails to deserialize. -/
theorem test_deserialize_rejects :
    [[], [0x06#8], [0x00#8, 0x09#8, 0x01#8], [0x00#8, 0x01#8, 0x02#8], [0x00#8, 0x06#8, 0x04#8], [0x01#8, 0x00#8],
      [0x04#8, 0x00#8], [0x05#8], [0x05#8, 0x01#8, 0x02#8], 0x02#8 :: 0x02#8 :: List.replicate 20 0x00#8].map deserialize
      = List.replicate 10 (.err .serializationError) := by decide

/-! ## Opcode-table numbers (R81) -/

theorem test_error_codes : ErrorKind.clockError.code = 5 ∧ ErrorKind.unknownDeviceVariant.code = 6 := by decide
theorem test_table_word_rqr : decodeTableWord 24 0x013412 = some (.rqr 0x1234#16) := by decide
theorem test_table_word_err : decodeTableWord 16 0x0507 = some (.err 0x07#8) := by decide
theorem test_table_word_writeByte : decodeTableWord 16 0xE0C1 = some (.writeByte 0x60#7 0xC1#8) := by decide
theorem test_table_word_rejected : decodeTableWord 24 0x000901 = none := by decide

/-! ## The codec's vectors -/

/-- BW-1 to BW-9 and the read pair of R84. -/
theorem test_bus_words :
    request 0xFF#8 = 0xFF00#16 ∧ writePair 0x60#8 0x02C1#16 = [0xE0C1#16, 0xE102#16] ∧
    writePair 0x00#8 0x80C1#16 = [0x80C1#16, 0x8180#16] ∧ writePair 0xFF#8 0x1234#16 = [0xFF34#16, 0x8012#16] ∧
    writePair 0x80#8 0xABCD#16 = [0x80CD#16, 0x81AB#16] ∧ writePair 0x7F#8 0x0000#16 = [0xFF00#16, 0x8000#16] ∧
    readPair 0x60#8 = [0x6000#16, 0x0000#16] := by decide

/-- MS-1 to MS-8: the candidate words. -/
theorem test_candidate_words :
    [.burst32 .enabled, .burstSel .sel1, .linGComp .disabled, .pop .disabled, .bandwidth .narrow, .syncMode .mode3,
      .syncPol .pos, .drPol .neg].map (fun f => mscEncode (candidate f FwConfig.default).mscCtrl) =
    [0x02C1#16, 0x01C1#16, 0x0041#16, 0x0081#16, 0x10C1#16, 0x00CD#16, 0x00C3#16, 0x00C0#16] := by decide

/-- MD-1, MD-2, DG-1, DG-2. -/
theorem test_reserved_bits_ignored :
    mscDecode 0xFFFF#16 = mscDecode 0x13CF#16 ∧ mscDecode 0xEC30#16 = mscDecode 0x0000#16 := by decide
theorem test_diag_0088 : diagDecode 0x0088#16 =
    ⟨false, false, true, false, false, false, true, false, false, false⟩ := by decide
theorem test_diag_0400 : diagDecode 0x0400#16 =
    ⟨false, false, false, false, false, false, false, false, false, true⟩ := by decide

/-- CS-1, CS-2, CS-3, BD-1, BD-2. -/
theorem test_checksums :
    checksum [0#16, 1#16, 2#16, 3#16, 4#16, 5#16, 6#16, 7#16, 8#16, 0#16] = 0x0024#16 ∧
    checksum (List.replicate 10 0xFFFF#16) = 0x11EE#16 ∧ checksum (List.replicate 16 0xFFFF#16) = 0x1DE2#16 ∧
    corrupted bd1 = false ∧ corrupted bd3 = false ∧ corrupted (bd1.set 2 0xFEF0#16) = true := by decide

/-- BD-1 and BD-3: raw values, temperature and counter. -/
theorem test_raw16 : (raw16 bd1 0, raw16 bd1 1, raw16 bd1 5) = (16, -16, -32768) := by
  norm_num [raw16, sint16, wordAt, bd1, BitVec.toInt]
theorem test_raw32 : (raw32 bd3 0, raw32 bd3 1, raw32 bd3 4) = (2, -1 / 2, -1073741823 / 32768) := by
  norm_num [raw32, sint16, uint16, wordAt, bd3, Config.fracDiv, BitVec.toInt]
theorem test_temp_and_counter :
    tempRaw .p16 bd1 = 400 ∧ dataCntr .p16 bd1 = 5#16 ∧ tempRaw .p32 bd3 = 2560 ∧ dataCntr .p32 bd3 = 4660#16 ∧
    tempRaw .p16 (bd1.set 7 0xFF9C#16) = -100 := by decide

/-! ## Framing vectors -/

/-- FR-1, FR-2, FR-4, FR-5, FR-7, FR-8. -/
theorem test_frames :
    frame (.cfg (.burstEn true)) = [0x00#8, 0x01#8, 0x01#8, 0x02#8, 0x01#8, 0x00#8] ∧
    frame (.cfg (.burstEn false)) = [0x00#8, 0x01#8, 0x01#8, 0x01#8, 0x01#8, 0x00#8] ∧
    frame (.rqr 0x6000#16) = [0x00#8, 0x02#8, 0x01#8, 0x02#8, 0x60#8, 0x00#8] ∧
    frame (.rqr 0x00C1#16) = [0x00#8, 0x03#8, 0x01#8, 0xC1#8, 0x01#8, 0x00#8] ∧
    frame .rst = [0x00#8, 0x02#8, 0x04#8, 0x00#8] ∧ frame (.err 0x05#8) = [0x00#8, 0x03#8, 0x05#8, 0x05#8, 0x00#8] := by
  decide

/-- FR-9. -/
theorem test_frame_b16 : frame (.b16 .sel0 bd1) =
    [0x00#8, 0x02#8, 0x02#8, 0x01#8, 0x01#8, 0x02#8, 0x10#8, 0x03#8, 0xF0#8, 0xFF#8, 0x02#8, 0x01#8, 0x01#8, 0x02#8,
      0x01#8, 0x01#8, 0x05#8, 0x80#8, 0x90#8, 0x01#8, 0x05#8, 0x03#8, 0x17#8, 0x03#8, 0x00#8] := by decide

/-- FR-10. -/
theorem test_frame_b32 : frame (.b32 .sel1 bd3) =
    [0x00#8, 0x03#8, 0x03#8, 0x01#8, 0x01#8, 0x02#8, 0x01#8, 0x01#8, 0x04#8, 0x80#8, 0xFF#8, 0xFF#8, 0x02#8, 0x40#8,
      0x01#8, 0x05#8, 0xFF#8, 0xFF#8, 0xFF#8, 0x7F#8, 0x01#8, 0x01#8, 0x03#8, 0x80#8, 0x01#8, 0x02#8, 0x02#8, 0x01#8,
      0x01#8, 0x01#8, 0x06#8, 0x0A#8, 0x34#8, 0x12#8, 0x0E#8, 0x07#8, 0x00#8] := by decide

/-- CB-1 to CB-3, CB-7 to CB-9. -/
theorem test_cobs_small :
    cobsEncode [] = [0x01#8] ∧ cobsEncode [0x00#8] = [0x01#8, 0x01#8] ∧
    cobsEncode [0x00#8, 0x00#8] = [0x01#8, 0x01#8, 0x01#8] ∧ cobsDecode [0x03#8, 0x01#8] = .err .serializationError ∧
    cobsDecode [] = .ok [] ∧ cobsDecode [0x01#8] = .ok [] ∧ cobsDecode [0x01#8, 0x01#8] = .ok [0x00#8] := by decide

set_option maxRecDepth 4000 in
/-- CB-5: 254 non-zero bytes are one full block and an empty one. -/
theorem test_cobs_full_block : cobsEncode (List.replicate 254 0x11#8) =
    0xFF#8 :: List.replicate 254 0x11#8 ++ [0x01#8] := by decide

/-- AC-1, AC-4. -/
theorem test_feed_across_chunks :
    (Accumulator.fresh.feed [0x02#8, 0x04#8]).1 = .consumed ∧
    ((Accumulator.fresh.feed [0x02#8, 0x04#8]).2.feed [0x00#8]).1 = .success .rst [] ∧
    (Accumulator.fresh.feed [0x00#8, 0x02#8, 0x04#8, 0x00#8]).1 = .deserError [0x02#8, 0x04#8, 0x00#8] := by decide

/-- AC-2: the garbage property. -/
theorem test_drain_garbage :
    (Accumulator.fresh.drain [0x00#8, 0x01#8, 0x01#8, 0x02#8, 0x01#8, 0x00#8, 0x37#8, 0x00#8, 0xAA#8, 0x55#8, 0x12#8,
      0x00#8, 0x02#8, 0x01#8, 0x02#8, 0x60#8, 0x00#8]).1 = [.cfg (.burstEn true), .rqr 0x6000#16] := by decide

/-- AC-6 and AC-7 at the capacity: an accumulator of `n` bytes is fed more than fits. -/
def filled (n : Nat) : Accumulator := { buf := [], idx := n }

theorem test_feed_overflow :
    ((filled 200).feed (List.replicate 70 0x11#8)).1 = .overFull (List.replicate 14 0x11#8) ∧
    ((filled 256).feed [0x22#8, 0x33#8]).1 = .overFull [0x22#8, 0x33#8] ∧
    ((filled 255).feed [0x00#8]).1 = .deserError [] ∧ ((filled 256).feed [0x00#8]).1 = .overFull [] := by decide

/-! ## One step each: the instruction placed at power-on, time 1000, and run (95_test_vectors, sections 4 and 5) -/

def booted : State :=
  { State.reset with now := 1000, clockReplies := [true], answers := [0x5555#16], writeReplies := [true] }

/-- The state after the very next step, with the instruction of a table word placed. -/
def ran (nbits w : Nat) : Option State := nextOf (step (booted.withFetchWord nbits w))

/-- The handshake's first phase for a field, from the default configuration, with the register word the vector gives. -/
def begun (f : ConfigField) (w : Word) : Phase := .cfgW1 f { burstEnabled := false, mscCtrl := mscDecode w } []

/-- XF-1: the first transaction fires at once. -/
theorem test_run_burstCmd : (ran 16 0x6800).map (fun t => (t.busLog, t.lastTxn, t.phase)) =
    some ([⟨1000, 0x6800#16, 0x5555#16⟩], some 1000, .burstWord .p16 .sel0 []) := by decide
theorem test_run_fill : (ran 16 0x0000).map (fun t => (t.busLog, t.phase)) =
    some ([⟨1000, 0x0000#16, 0x5555#16⟩], .burstWord .p16 .sel0 [0x5555#16]) := by decide
theorem test_run_readReq : (ran 16 0x6000).map (fun t => (t.busLog, t.phase)) =
    some ([⟨1000, 0x6000#16, 0x5555#16⟩], .rqr2 0x6000#16 []) := by decide
theorem test_run_writeByte : (ran 16 0xE0FF).map (fun t => (t.busLog, t.cfg, t.phase)) =
    some ([⟨1000, 0xE0FF#16, 0x5555#16⟩], FwConfig.default, .rqr2 0xE0FF#16 []) := by decide
/-- P1, HS-6. -/
theorem test_run_cfgBurstEn : (ran 24 0x000001).map (fun t => (t.cfg.burstEnabled, t.resp, t.phase)) =
    some (true, [.cfg (.burstEn true)], .feed []) := by decide
theorem test_run_cfgBurstEn_same : (ran 24 0x000000).map (fun t => (t.cfg, t.resp)) =
    some (FwConfig.default, [.cfg (.burstEn false)]) := by decide
/-- MS-1 to MS-8; HS-5 and MS-9 for a value already current. -/
theorem test_run_cfgBurst32 : (ran 24 0x000101).map (·.phase) = some (begun (.burst32 .enabled) 0x02C1#16) := by decide
theorem test_run_cfgBurstSel : (ran 24 0x000201).map (·.phase) = some (begun (.burstSel .sel1) 0x01C1#16) := by decide
theorem test_run_cfgLinGComp : (ran 24 0x000300).map (·.phase) = some (begun (.linGComp .disabled) 0x0041#16) := by
  decide
theorem test_run_cfgPop : (ran 24 0x000400).map (·.phase) = some (begun (.pop .disabled) 0x0081#16) := by decide
theorem test_run_cfgPop_same : (ran 24 0x000401).map (fun t => (t.resp, t.phase, t.busLog)) =
    some ([.cfg (.pop .enabled)], .feed [], []) := by decide
theorem test_run_cfgBandwidth : (ran 24 0x000501).map (·.phase) = some (begun (.bandwidth .narrow) 0x10C1#16) := by
  decide
theorem test_run_cfgSyncMode : (ran 24 0x000603).map (·.phase) = some (begun (.syncMode .mode3) 0x00CD#16) := by decide
theorem test_run_cfgSyncPol : (ran 24 0x000701).map (·.phase) = some (begun (.syncPol .pos) 0x00C3#16) := by decide
theorem test_run_cfgDrPol : (ran 24 0x000800).map (·.phase) = some (begun (.drPol .neg) 0x00C0#16) := by decide
theorem test_run_cfgDrPol_same : (ran 24 0x000801).map (fun t => (t.resp, t.busLog)) =
    some ([.cfg (.drPol .pos)], []) := by decide
/-- RQ-3. -/
theorem test_run_rqr : (ran 24 0x013412).map (·.phase) = some (.rqr1 0x1234#16 []) := by decide
/-- TR-1. -/
theorem test_run_rst : (ran 8 0x04).map (fun t => (t.rstLine, t.phase, t.resp)) = some (.low, .rstLow 1000 [], []) := by
  decide
/-- IG-1, IG-2. -/
theorem test_run_err : (ran 16 0x0507).map (fun t => (t.cfg, t.resp, t.busLog, t.phase)) =
    some (FwConfig.default, [], [], .feed []) := by decide
theorem test_run_b16 : (ran 176 0x02000000100000000000000000000000000000000000).map (fun t => (t.resp, t.phase)) =
    some ([], .feed []) := by decide
theorem test_run_b32 : (ran 272 0x03010000100000000000000000000000000000000000000000000000000000000000).map
    (fun t => (t.resp, t.phase)) = some ([], .feed []) := by decide

/-! ## Steps of the loop -/

/-- The handshake's last phase for `CFG Burst32 Enabled`, answered by `r`: HS-1, HS-2, HS-3, HS-4. -/
def readBack (r : Word) : Option (FwConfig × List Message) :=
  (nextOf (step { inPhase (.cfgR2 (.burst32 .enabled) ⟨false, mscDecode 0x02C1#16⟩ []) with answers := [r] })).map
    fun t => (t.cfg, t.resp)

theorem test_handshake_commits : readBack 0x02C1#16 = some (⟨false, mscDecode 0x02C1#16⟩, [.cfg (.burst32 .enabled)]) ∧
    readBack 0xEEC1#16 = readBack 0x02C1#16 := by decide
theorem test_handshake_drops : readBack 0x00C1#16 = some (FwConfig.default, []) ∧
    readBack 0x02C0#16 = some (FwConfig.default, []) := by decide

/-- FL-1, FL-2. -/
theorem test_flush_drops_the_eleventh :
    (nextOf (step { inPhase .flush with
      resp := List.replicate 11 (.cfg (.burstEn true)), writeReplies := List.replicate 11 true })).map
      (fun t => (t.tx.length, t.resp, t.phase)) = some (60, [], .burstCheck) := by decide
theorem test_flush_tries_each :
    (nextOf (step { inPhase .flush with
      resp := List.replicate 10 (.cfg (.burstEn true)) ++ [.rst, .cfg (.burstEn true)],
      writeReplies := List.replicate 12 true })).map
      (fun t => (t.tx.length, t.tx.drop 60)) = some (64, [0x00#8, 0x02#8, 0x04#8, 0x00#8]) := by decide

/-- BC-1, BC-3. -/
theorem test_burst_check_disabled :
    (nextOf (step { inPhase .burstCheck with drPending := true })).map (fun t => (t.phase, t.drPending)) =
      some (.top, true) := by decide
theorem test_burst_check_captures :
    (nextOf (step { inPhase .burstCheck with drPending := true, cfg := ⟨true, mscDecode 0x03C1#16⟩ })).map (·.phase) =
      some (.burstCmd .p32 .sel1) := by decide

/-- A capture's last word with `n` bytes in `tx`: FL-3, FL-4. -/
def lastWord (n : Nat) : Option (Nat × Bool × Phase) :=
  (nextOf (step { inPhase (.burstWord .p16 .sel0 (bd1.take 9)) with
    answers := [0x0317#16], tx := List.replicate n 0x11#8, drPending := true })).map
    fun t => (t.tx.length, t.drPending, t.phase)

theorem test_emit_dropped : lastWord 40 = some (40, false, .top) := by decide
theorem test_emit_fits : lastWord 37 = some (62, false, .top) := by decide

/-- R112: 70 bytes give a chunk of 64 and leave 6. -/
theorem test_top_takes_a_chunk :
    (nextOf (step { inPhase .top with rx := List.replicate 70 0x11#8 })).map (fun t => (t.phase, t.rx.length)) =
      some (.feed (List.replicate 64 0x11#8), 6) := by decide

/-- XF-4, FA-1. -/
theorem test_clock_fault :
    (nextOf (step (clockless (.burstCmd .p16 .sel0)))).map (fun t => (t.phase, t.busLog, t.lastTxn)) =
      some (.fault .clockError, [], none) := by decide
/-- 60_exceptions R131: RST, whose last two bytes are fed here, faults on its clock query; the accumulator stays as it was. -/
theorem test_rst_fault_keeps_accumulator :
    (nextOf (step { clockless (.feed [0x04#8, 0x00#8]) with acc := ⟨[(0, 0x02#8)], 1⟩ })).map
      (fun t => (t.phase, t.acc, t.rstLine)) = some (.fault .clockError, ⟨[(0, 0x02#8)], 1⟩, .high) := by decide
theorem test_fault_keeps_host :
    (nextOf (step { inPhase (.fault .clockError) with turns := [.hostWrite [0x11#8]] })).map (fun t => (t.phase, t.rx)) =
      some (.fault .clockError, [0x11#8]) := by decide

/-- 20_memory R52, R55, 60_exceptions R133, 30_encoding R80. -/
theorem test_environment_moves :
    (nextOf (step { inPhase .top with turns := [.hostRead 2], tx := [1#8, 2#8, 3#8] })).map (·.tx) = some [3#8] ∧
    (nextOf (step { inPhase .top with turns := [.drEdge] })).map (·.drPending) = some true ∧
    (nextOf (step { inPhase .top with turns := [.tick 6] })).map (·.now) = some 1006 ∧
    (nextOf (step { inPhase .top with turns := [.sensorAnswer 7#16] })).map (·.answers) =
      some [0x00C1#16, 7#16] := by decide

/-! ## Witnesses: for every statement with hypotheses, values that meet them, at the ends of their ranges

Each is named after its statement. A statement left out has no hypothesis. -/

theorem witness_DecodeOfEncodeIsIdentity :
    (Instr.readReq 0x01#8).wf = true ∧ (Instr.readReq 0x7F#8).wf = true ∧ (Instr.b16 .sel1 bd1).wf = true ∧
      (Instr.b32 .sel0 bd3).wf = true := by decide

theorem witness_EncodeOfDecodeIsIdentity :
    decode (.bus 0x7F00#16) = .ok (.readReq 0x7F#8) ∧ decode (.bus 0x8000#16) = .ok (.writeByte 0#7 0#8) ∧
      decode (.msg [0x05#8, 0xFF#8]) = .ok (.err 0xFF#8) := by decide

theorem witness_DeserializeAcceptsExactlySerialized :
    (Message.b32 .sel1 bd3).wf = true ∧ serialize (.b32 .sel1 bd3) = serialize (.b32 .sel1 bd3) := by decide

theorem witness_RegisterAccessWords : 0x80 ≤ (0x80#8 : Byte).toNat ∧ 0x80 ≤ (0xFF#8 : Byte).toNat := by decide

theorem witness_ChecksumIsTheByteSum : bd1.length = 10 ∧ bd3.length = 16 := by decide

theorem witness_SingleBitFlipIsDetected :
    bd1.length = 10 ∧ validate bd1 = true ∧ 8 < bd1.length - 1 ∧ bd3.length = 16 ∧ validate bd3 = true ∧
      14 < bd3.length - 1 := by decide

theorem witness_RawComponentValues : bd1.length = 10 ∧ bd3.length = 16 ∧ 5 < 6 := by decide

theorem witness_VariantLookup : (" ").toList.getLast? = some ' ' := by decide

theorem witness_CobsEncoderFollowsTheRule : (List.replicate 253 0x11#8 : List Byte).length < 254 := by
  rw [List.length_replicate]; omega

theorem witness_UnframeInvertsFrame : Message.rst.wf = true ∧ (Message.b32 .sel0 bd3).wf = true := by decide

theorem witness_FrameLengths :
    Message.rst.wf = true ∧ (Message.b32 .sel0 bd3).wf = true ∧ bd1.length = 10 ∧ bd3.length = 16 := by decide

/-- An accumulator that has received `n` bytes, each 0x11. -/
def received (n : Nat) : Accumulator := { buf := (List.range n).map fun i => (i, 0x11#8), idx := n }

theorem received_read (n j : Nat) : (received n).buf.read j = if j < n then 0x11#8 else 0x00#8 := by
  have key : ∀ l : List Nat, Memory.read (l.map fun i => (i, 0x11#8)) j = if j ∈ l then 0x11#8 else 0x00#8 := by
    intro l
    induction l with
    | nil => rfl
    | cons k l ih =>
      rw [List.map_cons, Memory.read_cons, ih]
      by_cases h : k = j
      · simp [h]
      · simp [h, show ¬j = k from fun e => h e.symm]
  simpa [received] using key (List.range n)

theorem received_wf {n : Nat} (h : n ≤ 256) : (received n).wf where
  idxBound := h
  canonical := by
    refine ⟨?_, ?_⟩
    · exact List.Pairwise.map _ (fun _ _ h => h) List.pairwise_lt_range
    · intro c hc
      obtain ⟨i, -, rfl⟩ := List.mem_map.1 hc
      simp [Memory.unlisted]
  inside := by
    intro c hc
    obtain ⟨i, hi, rfl⟩ := List.mem_map.1 hc
    have := List.mem_range.1 hi
    simp only [Config.accCap]
    omega
  noSentinel := by
    intro j hj
    rw [received_read, if_pos (show j < n from hj)]
    simp [Config.sentinel]

theorem witness_FeedKeepsAccumulator :
    (received 0).wf ∧ (received 256).wf ∧ (received 256).pending = (received 256).pending :=
  ⟨received_wf (by omega), received_wf (by omega), rfl⟩

/-- A frame that just fits and one that does not, with and without its sentinel, a message and no message. -/
theorem witness_FeedOnPendingBytes :
    (received 255).wf ∧ (received 256).wf ∧ (received 255).idx + (([] : List Byte).length + 1) ≤ 256 ∧
    256 < (received 256).idx + (([] : List Byte).length + 1) ∧
    (received 255).idx + [0x11#8].length ≤ 256 ∧ 256 < (received 256).idx + [0x11#8].length ∧
    (received 0).wf ∧ unframe ((received 0).pending ++ [0x02#8, 0x04#8]) = .ok .rst ∧
    unframe ((received 0).pending ++ []) = .err .serializationError :=
  ⟨received_wf (by omega), received_wf (by omega), by decide, by decide, by decide, by decide, received_wf (by omega),
    by decide, by decide⟩

theorem witness_FeedReturnsASuffix : (received 0).idx ≤ 256 ∧ (received 256).idx ≤ 256 := by decide

theorem witness_DrainTerminates : (received 256).wf ∧ 2 * [0x11#8, 0x22#8].length + 1 ≤ 5 :=
  ⟨received_wf (by omega), by decide⟩

/-- AC-3 at each end: nothing first, a cut after the leading sentinel, everything first. -/
theorem witness_SplitInvariance :
    (∀ m ∈ [Message.rqr 0x1234#16, .rst], m.wf = true) ∧
    [] ++ [Message.rqr 0x1234#16, .rst].flatMap frame = [Message.rqr 0x1234#16, .rst].flatMap frame ∧
    [0x00#8] ++ [0x04#8, 0x01#8, 0x34#8, 0x12#8, 0x00#8, 0x00#8, 0x02#8, 0x04#8, 0x00#8] =
      [Message.rqr 0x1234#16, .rst].flatMap frame ∧
    [Message.rqr 0x1234#16, .rst].flatMap frame ++ [] = [Message.rqr 0x1234#16, .rst].flatMap frame := by decide

/-- AC-2: the garbage of the spec's own example, and none at all. -/
theorem witness_GarbageBetweenFramesHeals :
    (Message.cfg (.burstEn true)).wf = true ∧ (Message.rqr 0x6000#16).wf = true ∧
    (∀ p ∈ pieces [0x37#8, 0x00#8, 0xAA#8, 0x55#8, 0x12#8], ∀ m, unframe p ≠ .ok m) ∧
    (∀ p ∈ pieces [], ∀ m, unframe p ≠ .ok m) := by
  have e1 : pieces [0x37#8, 0x00#8, 0xAA#8, 0x55#8, 0x12#8] = [[0x37#8], [0xAA#8, 0x55#8, 0x12#8]] := by decide
  have e2 : unframe [0x37#8] = .err .serializationError := by decide
  have e3 : unframe [0xAA#8, 0x55#8, 0x12#8] = .err .serializationError := by decide
  have e4 : unframe [] = .err .serializationError := by decide
  refine ⟨rfl, rfl, ?_, ?_⟩
  · rw [e1]
    intro p hp m
    rcases List.mem_cons.1 hp with h | h
    · rw [h, e2]; simp
    · rw [List.mem_singleton.1 h, e3]; simp
  · intro p hp m
    rw [show pieces [] = [[]] from rfl] at hp
    rw [List.mem_singleton.1 hp, e4]
    simp

/-! ### States that meet the invariant -/

/-- A state with an empty bus history meets the invariant when its phase's data is right. -/
theorem inv_of_phaseOk {s : State} (ha : s.acc = Accumulator.fresh) (ht : s.tx = []) (hl : s.lastTxn = none)
    (hb : s.busLog = []) (hp : PhaseOk s) (hr : s.resp = [])
    (hw : s.rstLine = .low → lineMayBeLow s.phase = true) : s.Inv where
  accWf := by rw [ha]; exact received_wf (n := 0) (by omega)
  txBound := by rw [ht]; exact Nat.zero_le _
  lastLogged := by rw [hl, hb]; rfl
  pastLog := by rw [hb]; intro e he; cases he
  spaced := by rw [hb]; exact List.Pairwise.nil
  phaseOk := hp
  responses := by rw [hr]; intro m hm; cases hm
  lineHigh := hw

/-- Top, and the capture's first phase with the latch set. -/
def topState : State := inPhase .top
def captureState : State :=
  { inPhase (.burstCmd .p16 .sel0) with cfg := ⟨true, mscDecode 0x00C1#16⟩, drPending := true }

theorem topState_inv : topState.Inv := inv_of_phaseOk rfl rfl rfl rfl rfl rfl (fun h => by cases h)
theorem captureState_inv : captureState.Inv :=
  inv_of_phaseOk rfl rfl rfl rfl ⟨rfl, rfl, rfl, rfl, rfl⟩ rfl (fun h => by cases h)

/-- The end of a reset pulse exactly `Config.tRst` after it began, with a configuration that is not the default. -/
def pulseState : State :=
  { inPhase (.rstLow 0 []) with rstLine := .low, now := Config.tRst, cfg := ⟨true, mscDecode 0x02C1#16⟩ }

theorem pulseState_inv : pulseState.Inv :=
  inv_of_phaseOk rfl rfl rfl rfl ⟨Nat.zero_le _, rfl, Nat.zero_le _⟩ rfl (fun _ => rfl)

theorem pulseState_step : ∃ t, step pulseState = .next t ∧ t.cfg = FwConfig.default ∧ t.rstLine = .high := by
  refine ⟨_, rfl, ?_⟩
  have h : elapsed Config.tRst 0 Config.tRst = true := by simp [elapsed]
  show (resetStep 0 [] pulseState.popTurn).cfg = _ ∧ (resetStep 0 [] pulseState.popTurn).rstLine = _
  rw [resetStep, withClock_ok rfl]
  show (if elapsed Config.tRst 0 Config.tRst = true then _ else _ : State).cfg = _ ∧
    (if elapsed Config.tRst 0 Config.tRst = true then _ else _ : State).rstLine = _
  rw [if_pos h]
  exact ⟨rfl, rfl⟩

/-- The candidate of `CFG Burst32 Enabled`, and the handshake's phases for it: the second write word at time 0, the read request
at the settle delay and the minimum interval later, and the time of the last word another minimum interval later. -/
def cand : FwConfig := ⟨false, mscDecode 0x02C1#16⟩
def wrote : BusEvent := ⟨0, 0xE102#16, 0x2222#16⟩
def asked : BusEvent := ⟨Config.tSettle + Config.tMin, 0x6000#16, 0x3333#16⟩

def settleState (now : Nat) : State :=
  { inPhase (.cfgSettle (.burst32 .enabled) cand 0 []) with busLog := [wrote], lastTxn := some 0, now := now }

def requestState : State :=
  { inPhase (.cfgR1 (.burst32 .enabled) cand []) with
    busLog := [wrote], lastTxn := some 0, now := Config.tSettle + Config.tMin }

def commitState : State :=
  { inPhase (.cfgR2 (.burst32 .enabled) cand []) with
    busLog := [wrote, asked], lastTxn := some (Config.tSettle + Config.tMin)
    now := Config.tSettle + Config.tMin + Config.tMin, answers := [0x02C1#16] }

theorem requestState_ready : ReadyToSend requestState :=
  ⟨⟨rfl, rfl⟩, .inr ⟨0, rfl, by simp only [requestState]; omega⟩⟩

theorem commitState_ready : ReadyToSend commitState := ⟨⟨rfl, rfl⟩, .inr ⟨_, rfl, le_rfl⟩⟩

theorem handshaking {s : State} (hc : s.cfg = FwConfig.default) : Handshaking s (.burst32 .enabled) cand [] := by
  refine ⟨?_, ?_, Nat.zero_le _⟩ <;> rw [hc] <;> decide

theorem requestState_inv : requestState.Inv where
  accWf := received_wf (n := 0) (by omega)
  txBound := Nat.zero_le _
  lastLogged := rfl
  pastLog := by
    intro e he
    rw [List.mem_singleton.1 he]
    exact Nat.zero_le _
  spaced := List.pairwise_singleton _ _
  phaseOk := ⟨handshaking rfl, 0, ⟨[], wrote, rfl, by decide, rfl⟩, by simp only [requestState]; omega⟩
  responses := by intro m hm; cases hm
  lineHigh := by intro h; cases h

theorem commitState_inv : commitState.Inv where
  accWf := received_wf (n := 0) (by omega)
  txBound := Nat.zero_le _
  lastLogged := rfl
  pastLog := by
    intro e he
    rcases List.mem_cons.1 he with h | h
    · rw [h]; exact Nat.zero_le _
    · rw [List.mem_singleton.1 h]; simp only [commitState, asked]; omega
  spaced := by
    refine List.pairwise_pair.2 ?_
    simp only [wrote, asked]
    omega
  phaseOk := ⟨handshaking rfl, [], wrote, asked, rfl, by decide, by decide, by simp only [wrote, asked]; omega⟩
  responses := by intro m hm; cases hm
  lineHigh := by intro h; cases h

theorem commitState_step : ∃ t, step commitState = .next t ∧ t.cfg = cand :=
  ⟨_, step_of_ready commitState_ready rfl, by
    show (finishHandshake _ cand _ 0x02C1#16 _).cfg = cand
    rw [finishHandshake_commit (by decide)]
    rfl⟩

/-! ### The step and the loop -/

theorem witness_StepKeepsInvariant :
    (∃ t, topState.Inv ∧ step topState = .next t) ∧ (∃ t, captureState.Inv ∧ step captureState = .next t) ∧
    (∃ t, pulseState.Inv ∧ step pulseState = .next t) ∧ (∃ t, commitState.Inv ∧ step commitState = .next t) :=
  ⟨⟨_, topState_inv, rfl⟩, ⟨_, captureState_inv, rfl⟩, ⟨_, pulseState_inv, rfl⟩, ⟨_, commitState_inv, rfl⟩⟩

/-- The chunk of FR-7 without its leading sentinel, with more bytes behind it. -/
def chunk : List Byte := [0x02#8, 0x04#8, 0x00#8, 0x37#8]

theorem witness_StepRunsDecodedMessage :
    (inPhase (.feed chunk)).nextTurn = .fw ∧ (inPhase (.feed chunk)).phase = .feed chunk ∧
    ((inPhase (.feed chunk)).acc.feed chunk).1 = .success .rst [0x37#8] ∧
    (inPhase (.feed (cobsEncode [0x04#8] ++ 0x00#8 :: []))).acc.wf ∧
    (inPhase (.feed (cobsEncode [0x04#8] ++ 0x00#8 :: []))).acc.idx = 0 ∧ decode (.msg [0x04#8]) = .ok .rst ∧
    ClockAnswers (inPhase (.feed chunk)) ∧ ClockFails (clockless (.feed chunk)) ∧
    ((clockless (.feed chunk)).acc.feed chunk).1 = .success .rst [0x37#8] ∧ (Message.err 0x07#8) ≠ .rst :=
  ⟨rfl, rfl, by decide, received_wf (n := 0) (by omega), rfl, by decide, ⟨rfl, rfl⟩, ⟨rfl, rfl⟩, by decide, by decide⟩

theorem witness_StepRunsDecodedBusWord :
    (inPhase (.cfgR1 (.burst32 .enabled) cand [])).nextTurn = .fw ∧
    sentWord (inPhase (.cfgR1 (.burst32 .enabled) cand [])).phase = some 0x6000#16 ∧
    decodeBus 0x6000#16 = .ok (.readReq 0x60#8) ∧
    sentWord (inPhase (.rqr1 0x1234#16 [])).phase = some 0x1234#16 ∧
    decodeBus 0x1234#16 = .rejected .unlistedBusWord := by decide

theorem witness_StepMakesEnvironmentMoves :
    { topState with turns := [.hostWrite [0x11#8]] }.nextTurn = .hostWrite [0x11#8] ∧
    { topState with turns := [.hostRead 0] }.nextTurn = .hostRead 0 ∧
    { topState with turns := [.drEdge] }.nextTurn = .drEdge ∧
    { topState with turns := [.tick 1] }.nextTurn = .tick 1 ∧
    { topState with turns := [.sensorAnswer 0#16] }.nextTurn = .sensorAnswer 0#16 := by decide

theorem witness_PlacedWordRunsNext :
    State.reset.acc.wf ∧ decodeTableWord 16 0x6800 = some .burstCmd ∧ decodeTableWord 8 0x04 = some .rst :=
  ⟨received_wf (n := 0) (by omega), by decide, by decide⟩

theorem witness_TopTakesOneChunk :
    topState.nextTurn = .fw ∧ topState.phase = .top ∧ topState.rx = [] ∧
    { topState with rx := [0x11#8] }.rx ≠ [] ∧ { topState with rx := [0x11#8] }.popTurn.readOk = true ∧
    { topState with rx := [0x11#8], readReplies := [false] }.popTurn.readOk = false := by decide

theorem witness_FeedStepOutcomes :
    (inPhase (.feed [])).nextTurn = .fw ∧
    (∃ a, (inPhase (.feed [0x02#8])).acc.feed [0x02#8] = (.consumed, a)) ∧
    (∃ a, { inPhase (.feed [0x00#8]) with acc := received 256 }.acc.feed [0x00#8] = (.overFull [], a)) ∧
    (∃ a, (inPhase (.feed [0x00#8])).acc.feed [0x00#8] = (.deserError [], a)) :=
  ⟨rfl, ⟨_, rfl⟩, ⟨{ received 256 with idx := 0 }, by
    rw [Accumulator.feed_some (pre := []) (rest := []) rfl]
    exact if_pos (by decide)⟩, ⟨_, rfl⟩⟩

theorem witness_FlushOffersEachResponse :
    { inPhase .flush with resp := [.rst], writeReplies := [true, false] }.nextTurn = .fw ∧
    { inPhase .flush with resp := [.rst], writeReplies := [true, false] }.phase = .flush ∧
    { inPhase .flush with resp := [.rst], writeReplies := [true, false] }.writeReplies = [true] ++ [false] ∧
    [true].length = { inPhase .flush with resp := [.rst], writeReplies := [true, false] }.resp.length := by decide

/-- One state for each of the three clauses: 32-bit, 16-bit, and none. -/
def checkState (e d : Bool) (w : Word) : State := { inPhase .burstCheck with cfg := ⟨e, mscDecode w⟩, drPending := d }

theorem witness_BurstCheckChoosesCapture :
    (checkState true true 0x02C1#16).nextTurn = .fw ∧ (checkState true true 0x02C1#16).phase = .burstCheck ∧
    (checkState true true 0x02C1#16).cfg.mscCtrl.burst32 = .enabled ∧
    (checkState true true 0x00C1#16).cfg.mscCtrl.burst32 = .disabled ∧
    (checkState false true 0x00C1#16).cfg.burstEnabled = false ∧ (checkState true false 0x00C1#16).drPending = false := by
  decide

/-! ### Messages -/

theorem witness_CfgBurstEnIsLocal : (inPhase (.feed chunk)).phase = .feed chunk := by decide
theorem witness_CfgMscRequestDispatch : (inPhase (.feed [])).phase = .feed [] := by decide
theorem witness_InboundBurstAndErrIgnored : (inPhase (.feed [])).phase = .feed [] := by decide

/-- A phase in a state where a word may go: no transaction yet, or the last one exactly the minimum interval ago. -/
theorem ready_first (p : Phase) : ReadyToSend (inPhase p) := ⟨⟨rfl, rfl⟩, .inl rfl⟩
theorem ready_boundary (p : Phase) : ReadyToSend (timed p 1 (1 + Config.tMin)) := ⟨⟨rfl, rfl⟩, .inr ⟨1, rfl, le_rfl⟩⟩

/-- The same one microsecond too early. -/
theorem held_boundary (p : Phase) : ClockAnswers (timed p 1 Config.tMin) ∧ ¬IntervalOver (timed p 1 Config.tMin) := by
  refine ⟨⟨rfl, rfl⟩, ?_⟩
  rintro (h | ⟨t0, h1, h2⟩)
  · cases h
  · cases h1
    simp only [timed] at h2
    omega

theorem fails (p : Phase) : ClockFails (clockless p) := ⟨rfl, rfl⟩

theorem witness_RqrForwardsRawPair :
    (inPhase (.feed chunk)).phase = .feed chunk ∧ ReadyToSend (inPhase (.rqr1 0x6000#16 chunk)) ∧
    ReadyToSend (timed (.rqr2 0x6000#16 chunk) 1 (1 + Config.tMin)) ∧ ClockFails (clockless (.rqr1 0x6000#16 [])) ∧
    ClockFails (clockless (.rqr2 0x6000#16 [])) :=
  ⟨rfl, ready_first _, ready_boundary _, fails _, fails _⟩

/-- The pulse exactly over, and one microsecond too early. -/
theorem witness_RestartPulse :
    (inPhase (.feed chunk)).phase = .feed chunk ∧ (inPhase (.feed chunk)).clockOk = true ∧
    (clockless (.feed chunk)).clockOk = false ∧ ClockAnswers (inPhase (.rstLow 1 [])) ∧
    1 + Config.tRst ≤ { inPhase (.rstLow 1 []) with now := 1 + Config.tRst }.now ∧
    { inPhase (.rstLow 1 []) with now := Config.tRst }.now < 1 + Config.tRst ∧
    ClockFails (clockless (.rstLow 1 [])) :=
  ⟨rfl, rfl, rfl, ⟨rfl, rfl⟩, le_rfl, by show Config.tRst < 1 + Config.tRst; omega, fails _⟩

/-! ### Bus words -/

theorem witness_BusInstructionsTransact :
    encode (.readReq 0x60#8) = .bus 0x6000#16 ∧ (inPhase (.rqr1 0x6000#16 [])).phase.isFault = false ∧
    (inPhase (.rqr1 0x6000#16 [])).clockOk = true ∧ IntervalOver (timed (.rqr1 0x6000#16 []) 1 (1 + Config.tMin)) ∧
    ¬IntervalOver (timed (.rqr1 0x6000#16 []) 1 Config.tMin) ∧ (clockless (.rqr1 0x6000#16 [])).clockOk = false :=
  ⟨by decide, rfl, rfl, (ready_boundary _).2, (held_boundary _).2, rfl⟩

theorem witness_XferFromEveryBusPhase :
    sentWord (timed (.rqr1 0x1234#16 []) 1 Config.tMin).phase = some 0x1234#16 ∧
    ClockFails (clockless (.rqr1 0x1234#16 [])) ∧ ClockAnswers (timed (.rqr1 0x1234#16 []) 1 Config.tMin) ∧
    ¬IntervalOver (timed (.rqr1 0x1234#16 []) 1 Config.tMin) ∧ ReadyToSend (timed (.rqr1 0x1234#16 []) 1 (1 + Config.tMin)) :=
  ⟨rfl, fails _, (held_boundary _).1, (held_boundary _).2, ready_boundary _⟩

/-- The settle delay exactly over, and one microsecond too early (with the second write word at 1). -/
theorem witness_HandshakePhases :
    ReadyToSend (inPhase (.cfgW1 (.burst32 .enabled) cand [])) ∧
    ReadyToSend (timed (.cfgW2 (.burst32 .enabled) cand []) 1 (1 + Config.tMin)) ∧
    ReadyToSend (timed (.cfgR1 (.burst32 .enabled) cand []) 1 (1 + Config.tMin)) ∧
    mscDecode (answerTo commitState 0x0000#16) = cand.mscCtrl ∧
    mscDecode (answerTo (inPhase (.cfgR2 (.burst32 .enabled) cand [])) 0x0000#16) ≠ cand.mscCtrl ∧
    ClockAnswers (inPhase (.cfgSettle (.burst32 .enabled) cand 1 [])) ∧ 1 + Config.tSettle ≤ 1 + Config.tSettle ∧
    Config.tSettle < 1 + Config.tSettle ∧ ClockFails (clockless (.cfgSettle (.burst32 .enabled) cand 1 [])) :=
  ⟨ready_first _, ready_boundary _, ready_boundary _, rfl, by decide, ⟨rfl, rfl⟩, le_rfl, by omega, fails _⟩

/-- The last word but one, the last word that fits (39 bytes and 25), that does not (40 and 25), and a failed write. -/
theorem witness_CaptureTransactions :
    ReadyToSend (inPhase (.burstCmd .p16 .sel0)) ∧ ReadyToSend (inPhase (.burstWord .p16 .sel0 (bd1.take 8))) ∧
    (bd1.take 8).length + 1 ≠ frameWords .p16 ∧ (bd1.take 9).length + 1 = frameWords .p16 ∧
    (sentState (inPhase (.burstWord .p16 .sel0 (bd1.take 9))) 0x0000#16 .top).writeOk = true ∧
    39 + (frame (burstMessage .p16 .sel0 (bd1.take 9 ++ [0x0317#16]))).length ≤ 64 ∧
    64 < 40 + (frame (burstMessage .p16 .sel0 (bd1.take 9 ++ [0x0317#16]))).length ∧
    (sentState { inPhase (.burstWord .p16 .sel0 (bd1.take 9)) with writeReplies := [false] } 0x0000#16 .top).writeOk =
      false :=
  ⟨ready_first _, ready_first _, by decide, by decide, rfl, by decide, by decide, rfl⟩

/-! ### Runs -/

def handshakeStart : State :=
  { inPhase (.cfgW1 (.burst32 .enabled) cand chunk) with
    turns := [.fw, .tick Config.tMin, .fw, .tick (max Config.tSettle Config.tMin), .fw, .fw, .tick Config.tMin, .fw]
    clockReplies := [true, true, true, true, true]
    answers := [0x1111#16, 0x2222#16, 0x3333#16, 0x02C1#16] }

theorem witness_HandshakeRuns :
    handshakeStart.phase = .cfgW1 (.burst32 .enabled) cand chunk ∧ IntervalOver handshakeStart ∧
    handshakeStart.turns =
      [.fw, .tick Config.tMin, .fw, .tick (max Config.tSettle Config.tMin), .fw, .fw, .tick Config.tMin, .fw] ∧
    handshakeStart.clockReplies = [true, true, true, true, true] ∧
    handshakeStart.answers = [0x1111#16, 0x2222#16, 0x3333#16, 0x02C1#16] ∧ mscDecode 0x02C1#16 = cand.mscCtrl ∧
    mscDecode 0x00C1#16 ≠ cand.mscCtrl :=
  ⟨rfl, .inl rfl, rfl, rfl, rfl, rfl, by decide⟩

def captureStart : State :=
  { inPhase (.burstCmd .p16 .sel0) with
    turns := .fw :: bd1.flatMap (fun _ => [.tick Config.tMin, .fw])
    clockReplies := List.replicate (frameWords .p16 + 1) true
    answers := 0xAAAA#16 :: bd1
    tx := List.replicate 39 0x11#8 }

theorem witness_CaptureRuns :
    captureStart.phase = .burstCmd .p16 .sel0 ∧ IntervalOver captureStart ∧ bd1.length = frameWords .p16 ∧
    captureStart.turns = .fw :: bd1.flatMap (fun _ => [.tick Config.tMin, .fw]) ∧
    captureStart.clockReplies = List.replicate (frameWords .p16 + 1) true ∧ captureStart.answers = 0xAAAA#16 :: bd1 ∧
    captureStart.writeReplies = [true] ∧
    captureStart.tx.length + (frame (burstMessage .p16 .sel0 bd1)).length ≤ 64 :=
  ⟨rfl, .inl rfl, by decide, rfl, rfl, rfl, rfl, by decide⟩

/-- A run's environment that lets the loop and the clock move by turns, the clock ticking by 1 and never failing. -/
def alternating (n : Nat) : Draws :=
  { turn := if n % 2 = 0 then .fw else .tick 1, answer := 0#16, clockOk := true, readOk := true, writeOks := [] }

/-- The run it gives from the start of a reset pulse, which is held first. -/
def pulseRun : Nat → State
  | 0 => { inPhase (.rstLow 0 []) with rstLine := .low, now := 0 }
  | n + 1 => (nextOf (step ((pulseRun n).withDraws (alternating n)))).getD (pulseRun n)

/-- The pulse, or the loop cycling with nothing to do. -/
def Quiet (s : State) : Prop :=
  s.phase ∈ [.rstLow 0 [], .feed [], .flush, .burstCheck, .top] ∧ s.rx = [] ∧ s.cfg.burstEnabled = false

theorem quiet_fwStep {s : State} (h : Quiet s) (hc : s.clockOk = true) :
    ∃ t, fwStep s = .next t ∧ Quiet t ∧ t.now = s.now := by
  obtain ⟨hp, hr, hb⟩ := h
  simp only [List.mem_cons, List.not_mem_nil, or_false] at hp
  rcases hp with hp | hp | hp | hp | hp <;> simp only [fwStep, hp]
  · refine ⟨_, rfl, ?_⟩
    rw [resetStep, withClock_ok hc]
    split
    · exact ⟨⟨by simp, hr, rfl⟩, rfl⟩
    · exact ⟨⟨by simp [hp], hr, hb⟩, rfl⟩
  · exact ⟨_, rfl, ⟨by simp, hr, hb⟩, rfl⟩
  · obtain ⟨tx, wr, n, e⟩ := flush_fold s.resp s
    refine ⟨_, rfl, ?_⟩
    rw [flushStep, e]
    exact ⟨⟨by simp, hr, hb⟩, rfl⟩
  · refine ⟨_, rfl, ?_⟩
    simp only [burstCheckStep, hb, Bool.false_and, Bool.false_eq_true, if_false]
    exact ⟨⟨by simp, hr, hb⟩, rfl⟩
  · refine ⟨_, rfl, ?_⟩
    rw [topStep, if_pos hr]
    exact ⟨⟨by simp, hr, hb⟩, rfl⟩

theorem quiet_step {s : State} (h : Quiet s) (n : Nat) :
    ∃ t, step (s.withDraws (alternating n)) = .next t ∧ Quiet t ∧ t.now = s.now + n % 2 := by
  by_cases hn : n % 2 = 0
  · have ht : (s.withDraws (alternating n)).nextTurn = .fw := by simp [alternating, hn]
    rw [step_fw ht, hn]
    exact quiet_fwStep (s := (s.withDraws (alternating n)).popTurn) h rfl
  · have ht : (s.withDraws (alternating n)).nextTurn = .tick 1 := by simp [alternating, hn]
    rw [step_env (by rw [ht]; simp), ht, Nat.mod_two_ne_zero.1 hn]
    exact ⟨_, rfl, h, rfl⟩

theorem pulseRun_next (n : Nat) :
    Quiet (pulseRun n) ∧ step ((pulseRun n).withDraws (alternating n)) = .next (pulseRun (n + 1)) ∧
      (pulseRun (n + 1)).now = (pulseRun n).now + n % 2 := by
  have key : Quiet (pulseRun n) → step ((pulseRun n).withDraws (alternating n)) = .next (pulseRun (n + 1)) ∧
      Quiet (pulseRun (n + 1)) ∧ (pulseRun (n + 1)).now = (pulseRun n).now + n % 2 := by
    intro h
    obtain ⟨t, h1, h2, h3⟩ := quiet_step h n
    have e : pulseRun (n + 1) = t := by rw [pulseRun, h1]; rfl
    rw [e]
    exact ⟨h1, h2, h3⟩
  have hq : Quiet (pulseRun n) := by
    clear key
    induction n with
    | zero => exact ⟨by simp [pulseRun, inPhase], rfl, rfl⟩
    | succ n ih =>
      obtain ⟨t, h1, h2, -⟩ := quiet_step ih n
      rw [pulseRun, h1]
      exact h2
  exact ⟨hq, (key hq).1, (key hq).2.2⟩

theorem pulseRun_now (n : Nat) : (pulseRun (2 * n)).now = n := by
  induction n with
  | zero => rfl
  | succ n ih =>
    rw [show 2 * (n + 1) = 2 * n + 1 + 1 by omega, (pulseRun_next (2 * n + 1)).2.2, (pulseRun_next (2 * n)).2.2, ih]
    omega

/-- The held transaction; and a fair run, held in its first phase. -/
theorem witness_HoldsEndAndLoopReturnsToTop :
    (sentWord { timed (.rqr1 0x1234#16 []) 1000 1000 with turns := [.tick Config.tMin, .fw] }.phase = some 0x1234#16 ∧
      { timed (.rqr1 0x1234#16 []) 1000 1000 with turns := [.tick Config.tMin, .fw] }.lastTxn = some 1000 ∧
      { timed (.rqr1 0x1234#16 []) 1000 1000 with turns := [.tick Config.tMin, .fw] }.clockReplies = [true]) ∧
    FairRun alternating pulseRun ∧ mayBeHeld (pulseRun 0).phase = true := by
  refine ⟨⟨rfl, rfl, rfl⟩, ?_, rfl⟩
  constructor
  · exact fun n => (pulseRun_next n).2.1
  · exact inv_of_phaseOk rfl rfl rfl rfl ⟨Nat.zero_le _, rfl, Nat.zero_le _⟩ rfl (fun _ => rfl)
  · rfl
  · exact fun t => ⟨2 * t, (pulseRun_now t).ge⟩
  · exact fun n _ => ⟨2 * n, by omega, by simp [alternating]⟩
  · exact fun n h => Bool.noConfusion (h.1.2 : true = false)

/-! ### The whole machine -/

/-- A fault from a transaction, and one from the dispatch of RST. -/
theorem witness_ClockFaultChangesOnlyThePhase :
    (∃ t, step (clockless (.burstCmd .p16 .sel0)) = .next t ∧ t.phase = .fault .clockError) ∧
    (∃ t, step (clockless (.feed chunk)) = .next t ∧ t.phase = .fault .clockError) ∧
    (clockless (.feed chunk)).phase = .feed chunk ∧ (clockless (.feed chunk)).phase.isFault = false :=
  ⟨⟨_, rfl, rfl⟩, ⟨_, rfl, rfl⟩, rfl, rfl⟩

theorem witness_FaultIsSticky :
    (inPhase (.fault .clockError)).phase = .fault .clockError ∧ (inPhase (.fault .clockError)).nextTurn = .fw ∧
    ∃ t, step (inPhase (.fault .clockError)) = .next t := ⟨rfl, rfl, _, rfl⟩

theorem witness_CommittedConfigurationIsVerified :
    (∃ t, commitState.Inv ∧ step commitState = .next t ∧ t.cfg.mscCtrl ≠ commitState.cfg.mscCtrl) ∧
    (∃ t, pulseState.Inv ∧ step pulseState = .next t ∧ t.cfg.mscCtrl ≠ pulseState.cfg.mscCtrl) := by
  obtain ⟨t, h1, h2⟩ := commitState_step
  obtain ⟨u, k1, k2, -⟩ := pulseState_step
  exact ⟨⟨t, commitState_inv, h1, by rw [h2]; decide⟩, ⟨u, pulseState_inv, k1, by rw [k2]; decide⟩⟩

/-- FR-1 without its leading sentinel. -/
def enableState : State := inPhase (.feed [0x01#8, 0x01#8, 0x02#8, 0x01#8, 0x00#8])

theorem witness_BurstEnabledWriters :
    (∃ t, enableState.Inv ∧ step enableState = .next t ∧ t.cfg.burstEnabled ≠ enableState.cfg.burstEnabled) ∧
    (∃ t, pulseState.Inv ∧ step pulseState = .next t ∧ t.cfg.burstEnabled ≠ pulseState.cfg.burstEnabled) := by
  obtain ⟨u, k1, k2, -⟩ := pulseState_step
  exact ⟨⟨_, inv_of_phaseOk rfl rfl rfl rfl (by decide : (5 : Nat) ≤ 64) rfl (fun h => by cases h), rfl, by decide⟩,
    ⟨u, pulseState_inv, k1, by rw [k2]; decide⟩⟩

theorem witness_DataReadyLatchWriters :
    (∃ t, step { topState with turns := [.drEdge] } = .next t ∧ topState.drPending = false ∧ t.drPending = true) ∧
    (∃ t, step { inPhase (.burstWord .p16 .sel0 (bd1.take 9)) with drPending := true } = .next t ∧
      t.drPending = false) := ⟨⟨_, rfl, rfl, rfl⟩, ⟨_, rfl, rfl⟩⟩

theorem witness_ResetLineWriters :
    (∃ t, step (inPhase (.feed chunk)) = .next t ∧ t.rstLine ≠ (inPhase (.feed chunk)).rstLine) ∧
    (∃ t, step pulseState = .next t ∧ t.rstLine ≠ pulseState.rstLine) := by
  obtain ⟨u, k1, -, k3⟩ := pulseState_step
  exact ⟨⟨_, rfl, by decide⟩, ⟨u, k1, by rw [k3]; decide⟩⟩

theorem witness_BusTransactionsAreSpaced :
    (∃ t, step captureState = .next t) ∧ captureState.Inv ∧ ∃ t, core.run 1 captureState = .next t :=
  ⟨⟨_, rfl⟩, captureState_inv, ⟨_, rfl⟩⟩

theorem witness_SettleBeforeReadBack :
    (∃ t, requestState.Inv ∧ requestState.phase = .cfgR1 (.burst32 .enabled) cand [] ∧ step requestState = .next t ∧
      t.busLog ≠ requestState.busLog) ∧
    ReadyToSend (timed (.rqr1 0xE0C1#16 []) 1 (1 + Config.tMin)) ∧
    ReadyToSend (timed (.rqr2 0xE0C1#16 []) 1 (1 + Config.tMin)) :=
  ⟨⟨_, requestState_inv, rfl, step_of_ready requestState_ready rfl, by rw [transact_busLog]; simp⟩,
    ready_boundary _, ready_boundary _⟩

/-- A queued ack, the flush, a commit, the end of a restart and the response of an RQR. -/
theorem witness_AcksEqualRequests :
    (∃ t, step enableState = .next t ∧ t.resp = [.cfg (.burstEn true)]) ∧
    (∃ t, step { inPhase .flush with resp := [.rst] } = .next t) ∧ (∃ t, step commitState = .next t) ∧
    (∃ t, step pulseState = .next t) ∧
    (∃ t, step (inPhase (.rqr2 0x6000#16 [])) = .next t ∧ t.resp = [.rqr 0x00C1#16]) :=
  ⟨⟨_, rfl, rfl⟩, ⟨_, rfl⟩, ⟨_, rfl⟩, ⟨_, rfl⟩, ⟨_, rfl, rfl⟩⟩

theorem witness_OutboundHoldsWholeFrames :
    (∃ t, step { inPhase .flush with resp := [.rst] } = .next t ∧ t.tx = frame .rst) ∧
    (∃ t, step { topState with turns := [.hostRead 1], tx := [0x11#8] } = .next t ∧ t.tx = []) ∧
    (∃ t, step (inPhase (.burstWord .p16 .sel0 (bd1.take 9))) = .next t ∧ t.tx.length = 25) ∧
    (List.replicate 64 0x11#8 : List Byte).length ≤ 64 :=
  ⟨⟨_, rfl, rfl⟩, ⟨_, rfl, rfl⟩, ⟨_, rfl, by decide⟩, by decide⟩

theorem witness_InboundIsFifoAndTimeOnlyTicks :
    (∃ t, step { topState with rx := [0x11#8] } = .next t ∧ t.rx = []) ∧
    (∃ t, step { topState with turns := [.hostWrite [0x11#8]] } = .next t ∧ t.rx = [0x11#8]) ∧
    (∃ t, step { topState with turns := [.tick 1] } = .next t ∧ t.now = 1001) :=
  ⟨⟨_, rfl, rfl⟩, ⟨_, rfl, rfl⟩, ⟨_, rfl, rfl⟩⟩

/-- A message and a bus word that go on, the bus word's clauses in a commit and in a capture's last word. -/
theorem witness_InstructionFrame :
    (∃ t, exec (.cfgBurstEn true) (inPhase (.feed chunk)) = .next t) ∧
    (∃ t, exec .rst (inPhase (.feed chunk)) = .next t ∧ t.rstLine = .low) ∧
    (∃ t, exec .fill (inPhase (.rqr2 0x6000#16 [])) = .next t ∧ t.resp ≠ []) ∧
    (∃ t, exec .fill { inPhase (.burstWord .p16 .sel0 (bd1.take 9)) with drPending := true } = .next t ∧
      t.drPending = false) ∧
    encode .fill = .bus 0x0000#16 ∧ encode .rst = .msg [0x04#8] :=
  ⟨⟨_, rfl⟩, ⟨_, rfl, rfl⟩, ⟨_, rfl, by decide⟩, ⟨_, rfl, rfl⟩, rfl, rfl⟩

theorem witness_OutboundOverflow :
    bd1.length = 10 ∧ bd3.length = 16 ∧
    ({ inPhase .flush with tx := List.replicate 60 0x11#8 }.txWrite [0#8, 0#8, 0#8, 0#8]).1 = true ∧
    ({ inPhase .flush with tx := List.replicate 60 0x11#8 }.txWrite [0#8, 0#8, 0#8, 0#8, 0#8]).1 = false := by
  decide

end Sys2Proof.Tests
end

section
/-! The statements of 10_state: what one step can do to `cfg.burst_enabled`, the reset line, the two streams and the clock, and
the state at power-on. -/

namespace Sys2Proof.Machine

/-! ## What the loop's own steps can do -/

/-- The settle delay ends in the fault, in a hold or in the read request's phase: in a change of phase each time. -/
theorem settleStep_eq_setPhase (f : ConfigField) (cand : FwConfig) (t0 : Nat) (rem : List Byte) (s : State) :
    ∃ p, settleStep f cand t0 rem s = s.popClock.setPhase p := by
  unfold settleStep
  rcases withClock_cases _ s with ⟨-, e⟩ | ⟨-, e⟩ <;> rw [e]
  · split
    · exact ⟨_, rfl⟩
    · exact ⟨s.phase, rfl⟩
  · exact ⟨_, rfl⟩

/-- The reset pulse ends once its width is over (43_firmware_loop R118), and until then only the phase may change. -/
theorem resetStep_cases (t0 : Nat) (rem : List Byte) (s : State) :
    (∃ p, resetStep t0 rem s = s.popClock.setPhase p) ∨
      (t0 + Config.tRst ≤ s.now ∧ resetStep t0 rem s =
        (((s.popClock.setReset .high).setCfg FwConfig.default).pushResp .rst).setPhase (.feed rem)) := by
  unfold resetStep
  rcases withClock_cases _ s with ⟨-, e⟩ | ⟨-, e⟩ <;> rw [e]
  · by_cases h : t0 + Config.tRst ≤ s.now
    · exact .inr ⟨h, if_pos (elapsed_iff.2 h)⟩
    · exact .inl ⟨s.phase, if_neg (mt elapsed_iff.1 h)⟩
  · exact .inl ⟨_, rfl⟩

theorem burstCheckStep_eq_setPhase (s : State) : ∃ p, burstCheckStep s = s.setPhase p := by
  unfold burstCheckStep
  split <;> exact ⟨_, rfl⟩

theorem dispatchMsc_cases (f : ConfigField) (s : State) :
    dispatchMsc f s = ackAndFeed (.cfg f) s ∨ ∃ p, dispatchMsc f s = s.setPhase p := by
  unfold dispatchMsc
  split
  · exact .inl rfl
  · exact .inr ⟨_, rfl⟩

/-- What dispatch can do: write `cfg.burst_enabled` and ack, start the reset pulse, fault at its clock query, ack only, or only
change the phase (43_firmware_loop R114 to R119). -/
theorem dispatched_cases (m : Message) (s : State) :
    (∃ v, m = .cfg (.burstEn v) ∧ dispatched m s = ackAndFeed m (s.setBurstEnabled v)) ∨
    (m = .rst ∧ s.clockOk = true ∧
      dispatched m s = (s.popClock.setReset .low).setPhase (.rstLow s.now s.phase.rem)) ∨
    (m = .rst ∧ s.clockOk = false ∧ dispatched m s = s.popClock.raiseFault .clockError) ∨
    dispatched m s = ackAndFeed m s ∨ ∃ p, dispatched m s = s.setPhase p := by
  cases m with
  | cfg f =>
    cases f with
    | burstEn v => exact .inl ⟨v, rfl, rfl⟩
    | _ => exact .inr (.inr (.inr (dispatchMsc_cases _ s)))
  | rst =>
    rcases withClock_cases (fun s => (s.setReset .low).setPhase (.rstLow s.now s.phase.rem)) s with h | ⟨h, e⟩
    · exact .inr (.inl ⟨rfl, h⟩)
    · exact .inr (.inr (.inl ⟨rfl, h, e⟩))
  | _ => exact .inr (.inr (.inr (.inr ⟨_, rfl⟩)))

/-- The state after a transaction, before the phase's continuation: the clock's reply and the answer `r` are taken, and the
transaction is logged (43_firmware_loop R111). -/
abbrev State.transacted (s : State) (w r : Word) : State := s.popClock.popAnswer.logTxn w r

/-- What the step of a phase that sends a word can do: with no transaction (the fault or a hold), or after it, only the phase
changes; or the handshake commits, an RQR's response is queued, or the captured burst is emitted. -/
theorem xfer_cases_of_sentWord {s : State} {w : Word} (h : sentWord s.phase = some w) :
    (∃ p, xfer w s = s.popClock.setPhase p) ∨
    ∃ r, (∃ p, xfer w s = (s.transacted w r).setPhase p) ∨
      (∃ f cand rem, s.phase = .cfgR2 f cand rem ∧
        xfer w s = (((s.transacted w r).setCfg cand).pushResp (.cfg f)).setPhase (.feed rem)) ∨
      (∃ v rem, s.phase = .rqr2 v rem ∧ xfer w s = ((s.transacted w r).pushResp (.rqr r)).setPhase (.feed rem)) ∨
      (∃ p sel ws, s.phase = .burstWord p sel ws ∧ ws.length + 1 = frameWords p ∧
        xfer w s = emitBurst p sel (ws ++ [r]) (s.transacted w r)) := by
  rcases xfer_cases w s with ⟨-, e⟩ | ⟨-, -, e⟩ | ⟨-, -, e⟩
  · exact .inl ⟨_, e⟩
  · exact .inl ⟨s.phase, e⟩
  · refine .inr ⟨s.popClock.answer w, ?_⟩
    rw [e, transact]
    rcases afterXfer_cases (s := s.transacted w (s.popClock.answer w)) h (s.popClock.answer w) with
      ⟨p, -, e⟩ | ⟨f, cand, rem, hp, -, e⟩ | hrqr | hburst
    · exact .inl ⟨p, e⟩
    · exact .inr (.inl ⟨f, cand, rem, hp, e⟩)
    · exact .inr (.inr (.inl hrqr))
    · exact .inr (.inr (.inr hburst))

/-! ## What they leave unchanged -/

@[simp] theorem xfer_now (w : Word) (s : State) : (xfer w s).now = s.now := by
  rcases xfer_cases w s with ⟨-, e⟩ | ⟨-, -, e⟩ | ⟨-, -, e⟩ <;> simp [e, transact]
@[simp] theorem xfer_rx (w : Word) (s : State) : (xfer w s).rx = s.rx := by
  rcases xfer_cases w s with ⟨-, e⟩ | ⟨-, -, e⟩ | ⟨-, -, e⟩ <;> simp [e, transact]
@[simp] theorem xfer_rstLine (w : Word) (s : State) : (xfer w s).rstLine = s.rstLine := by
  rcases xfer_cases w s with ⟨-, e⟩ | ⟨-, -, e⟩ | ⟨-, -, e⟩ <;> simp [e, transact]

@[simp] theorem dispatched_now (m : Message) (s : State) : (dispatched m s).now = s.now := by
  rcases dispatched_cases m s with ⟨v, -, e⟩ | ⟨-, -, e⟩ | ⟨-, -, e⟩ | e | ⟨p, e⟩ <;> simp [e, ackAndFeed]
@[simp] theorem dispatched_rx (m : Message) (s : State) : (dispatched m s).rx = s.rx := by
  rcases dispatched_cases m s with ⟨v, -, e⟩ | ⟨-, -, e⟩ | ⟨-, -, e⟩ | e | ⟨p, e⟩ <;> simp [e, ackAndFeed]
@[simp] theorem dispatched_tx (m : Message) (s : State) : (dispatched m s).tx = s.tx := by
  rcases dispatched_cases m s with ⟨v, -, e⟩ | ⟨-, -, e⟩ | ⟨-, -, e⟩ | e | ⟨p, e⟩ <;> simp [e, ackAndFeed]

section
variable (f : ConfigField) (cand : FwConfig) (t0 : Nat) (rem : List Byte) (s : State)

@[simp] theorem settleStep_now : (settleStep f cand t0 rem s).now = s.now := by
  obtain ⟨p, e⟩ := settleStep_eq_setPhase f cand t0 rem s; simp [e]
@[simp] theorem settleStep_rx : (settleStep f cand t0 rem s).rx = s.rx := by
  obtain ⟨p, e⟩ := settleStep_eq_setPhase f cand t0 rem s; simp [e]
@[simp] theorem settleStep_tx : (settleStep f cand t0 rem s).tx = s.tx := by
  obtain ⟨p, e⟩ := settleStep_eq_setPhase f cand t0 rem s; simp [e]
@[simp] theorem settleStep_cfg : (settleStep f cand t0 rem s).cfg = s.cfg := by
  obtain ⟨p, e⟩ := settleStep_eq_setPhase f cand t0 rem s; simp [e]
@[simp] theorem settleStep_rstLine : (settleStep f cand t0 rem s).rstLine = s.rstLine := by
  obtain ⟨p, e⟩ := settleStep_eq_setPhase f cand t0 rem s; simp [e]

@[simp] theorem resetStep_now : (resetStep t0 rem s).now = s.now := by
  rcases resetStep_cases t0 rem s with ⟨p, e⟩ | ⟨-, e⟩ <;> simp [e]
@[simp] theorem resetStep_rx : (resetStep t0 rem s).rx = s.rx := by
  rcases resetStep_cases t0 rem s with ⟨p, e⟩ | ⟨-, e⟩ <;> simp [e]
@[simp] theorem resetStep_tx : (resetStep t0 rem s).tx = s.tx := by
  rcases resetStep_cases t0 rem s with ⟨p, e⟩ | ⟨-, e⟩ <;> simp [e]

@[simp] theorem flushStep_now : (flushStep s).now = s.now := by
  obtain ⟨tx, wr, n, e⟩ := flush_fold s.resp s; simp [flushStep, e]
@[simp] theorem flushStep_rx : (flushStep s).rx = s.rx := by
  obtain ⟨tx, wr, n, e⟩ := flush_fold s.resp s; simp [flushStep, e]
@[simp] theorem flushStep_cfg : (flushStep s).cfg = s.cfg := by
  obtain ⟨tx, wr, n, e⟩ := flush_fold s.resp s; simp [flushStep, e]
@[simp] theorem flushStep_rstLine : (flushStep s).rstLine = s.rstLine := by
  obtain ⟨tx, wr, n, e⟩ := flush_fold s.resp s; simp [flushStep, e]

@[simp] theorem burstCheckStep_now : (burstCheckStep s).now = s.now := by
  obtain ⟨p, e⟩ := burstCheckStep_eq_setPhase s; simp [e]
@[simp] theorem burstCheckStep_rx : (burstCheckStep s).rx = s.rx := by
  obtain ⟨p, e⟩ := burstCheckStep_eq_setPhase s; simp [e]
@[simp] theorem burstCheckStep_tx : (burstCheckStep s).tx = s.tx := by
  obtain ⟨p, e⟩ := burstCheckStep_eq_setPhase s; simp [e]
@[simp] theorem burstCheckStep_cfg : (burstCheckStep s).cfg = s.cfg := by
  obtain ⟨p, e⟩ := burstCheckStep_eq_setPhase s; simp [e]
@[simp] theorem burstCheckStep_rstLine : (burstCheckStep s).rstLine = s.rstLine := by
  obtain ⟨p, e⟩ := burstCheckStep_eq_setPhase s; simp [e]

end

/-! ## `cfg.burst_enabled` (10_state R23) -/

/-- A handshake's commit keeps `cfg.burst_enabled`, because its candidate is `cfg` with a field of MscCtrl replaced. -/
theorem LoopStep.burstEnabled_cases {s t : State} (h : LoopStep s t) (hok : PhaseOk s) :
    t.cfg.burstEnabled = s.cfg.burstEnabled ∨
    (∃ rem rest v a, s.phase = .feed rem ∧ s.acc.feed rem = (.success (.cfg (.burstEn v)) rest, a) ∧
      t.cfg.burstEnabled = v) ∨
    (∃ t0 rem, s.phase = .rstLow t0 rem ∧ t.cfg.burstEnabled = false) := by
  cases h with
  | feedMessage rem m rest a hp _ hf _ =>
    rcases dispatched_cases m ((s.setAcc a).setPhase (.feed rest)) with
      ⟨v, rfl, e⟩ | ⟨-, -, e⟩ | ⟨-, -, e⟩ | e | ⟨p, e⟩ <;> rw [e]
    · exact .inr (.inl ⟨rem, rest, v, a, hp, hf, rfl⟩)
    all_goals exact .inl rfl
  | send w hw =>
    rcases xfer_cases_of_sentWord hw with
      ⟨p, e⟩ | ⟨r, ⟨p, e⟩ | ⟨f, cand, rem, hp, e⟩ | ⟨v, rem, -, e⟩ | ⟨p, sel, ws, -, -, e⟩⟩ <;> rw [e] <;> left
    case inr.inr.inl =>
      simp only [PhaseOk, hp] at hok
      obtain ⟨⟨rfl, -, -⟩, -⟩ := hok
      rfl
    all_goals simp [emitBurst]
  | reset t0 rem hp =>
    rcases resetStep_cases t0 rem s with ⟨p, e⟩ | ⟨-, e⟩ <;> rw [e]
    · exact .inl rfl
    · exact .inr (.inr ⟨t0, rem, hp, rfl⟩)
  | _ => left; simp

/-- Settles O51: a step of the loop writes it at those two places only, and no move of the environment writes `cfg`. -/
theorem burstEnabledWriters : Obligations.BurstEnabledWriters := by
  intro s t hinv hstep hne
  rcases step_cases hstep with ⟨-, h⟩ | ⟨-, rfl⟩
  · exact (h.burstEnabled_cases hinv.phaseOk).resolve_left hne
  · exact absurd (by rw [envMove_cfg, State.popTurn_cfg]) hne

/-! ## The reset line (10_state R30, 43_firmware_loop R118) -/

theorem LoopStep.rstLine_cases {s t : State} (h : LoopStep s t) :
    t.rstLine = s.rstLine ∨
    (t.rstLine = .low ∧ t.phase.isFault = false ∧
      ∃ rem rest a, s.phase = .feed rem ∧ s.acc.feed rem = (.success .rst rest, a) ∧ t.phase = .rstLow s.now rest) ∨
    (t.rstLine = .high ∧ ∃ t0 rem, s.phase = .rstLow t0 rem ∧ t0 + Config.tRst ≤ s.now ∧ t.phase = .feed rem) := by
  cases h with
  | feedMessage rem m rest a hp _ hf _ =>
    rcases dispatched_cases m ((s.setAcc a).setPhase (.feed rest)) with
      ⟨v, -, e⟩ | ⟨rfl, -, e⟩ | ⟨-, -, e⟩ | e | ⟨p, e⟩ <;> rw [e]
    case inr.inl => exact .inr (.inl ⟨rfl, rfl, rem, rest, a, hp, hf, rfl⟩)
    all_goals exact .inl rfl
  | reset t0 rem hp =>
    rcases resetStep_cases t0 rem s with ⟨p, e⟩ | ⟨hw, e⟩ <;> rw [e]
    · exact .inl rfl
    · exact .inr (.inr ⟨rfl, t0, rem, hp, hw, rfl⟩)
  | _ => left; simp

/-- Settles O53: only the dispatch of RST and the end of the pulse write the line. -/
theorem resetLineWriters : Obligations.ResetLineWriters := by
  intro s t hstep hne
  rcases step_cases hstep with ⟨-, h⟩ | ⟨-, rfl⟩
  · exact h.rstLine_cases.resolve_left hne
  · exact absurd (by rw [envMove_rstLine, State.popTurn_rstLine]) hne

/-! ## The outbound stream (10_state R34, 20_memory R51, R52) -/

theorem State.txWrite_tx_cases (s : State) (bs : List Byte) :
    (s.txWrite bs).2.tx = s.tx ++ bs ∨ (s.txWrite bs).2.tx = s.tx := by
  rcases s.txWrite_cases bs with ⟨-, -, e⟩ | ⟨-, e⟩ <;> simp [e]

/-- Of the responses offered one after the other, those that fit are appended whole and in order. -/
theorem flush_fold_tx (ms : List Message) (s : State) :
    ∃ sent : List Message, sent.Sublist ms ∧
      (ms.foldl (fun t m => (t.txWrite (frame m)).2) s).tx = s.tx ++ sent.flatMap frame := by
  induction ms generalizing s with
  | nil => exact ⟨[], .slnil, by simp⟩
  | cons m ms ih =>
    obtain ⟨sent, hsub, e⟩ := ih (s.txWrite (frame m)).2
    rw [List.foldl_cons, e]
    rcases s.txWrite_tx_cases (frame m) with h | h <;> rw [h]
    · exact ⟨m :: sent, hsub.cons_cons m, by simp⟩
    · exact ⟨sent, hsub.cons m, rfl⟩

theorem flush_fold_tx_bound (ms : List Message) {s : State} (h : s.tx.length ≤ Config.txCap) :
    (ms.foldl (fun t m => (t.txWrite (frame m)).2) s).tx.length ≤ Config.txCap := by
  induction ms generalizing s with
  | nil => exact h
  | cons m ms ih => exact ih (State.txWrite_bound h (frame m))

/-- Only the flush and the last word of a capture write `tx`. -/
theorem LoopStep.tx_cases {s t : State} (h : LoopStep s t) :
    t.tx = s.tx ∨ (s.phase = .flush ∧ t = flushStep s) ∨
    (∃ p sel ws w r, s.phase = .burstWord p sel ws ∧ ws.length + 1 = frameWords p ∧
      t = emitBurst p sel (ws ++ [r]) (s.transacted w r)) := by
  cases h with
  | send w hw =>
    rcases xfer_cases_of_sentWord hw with
      ⟨p, e⟩ | ⟨r, ⟨p, e⟩ | ⟨f, cand, rem, -, e⟩ | ⟨v, rem, -, e⟩ | ⟨p, sel, ws, hp, hl, e⟩⟩
    case inr.inr.inr.inr => exact .inr (.inr ⟨p, sel, ws, w, r, hp, hl, e⟩)
    all_goals exact .inl (by rw [e]; rfl)
  | flush hp => exact .inr (.inl ⟨hp, rfl⟩)
  | _ => left; simp

theorem LoopStep.tx_bound {s t : State} (h : LoopStep s t) (hs : s.tx.length ≤ Config.txCap) :
    t.tx.length ≤ Config.txCap := by
  rcases h.tx_cases with e | ⟨-, rfl⟩ | ⟨p, sel, ws, w, r, -, -, rfl⟩
  · rwa [e]
  · exact flush_fold_tx_bound s.resp hs
  · exact State.txWrite_bound (s := s.transacted w r) hs _

/-- What a step of the loop appends to `tx`: whole frames of queued responses, or of the words captured. -/
theorem LoopStep.tx_append {s t : State} (h : LoopStep s t) :
    ∃ ms : List Message, t.tx = s.tx ++ ms.flatMap frame ∧
      (ms = [] ∨ (s.phase = .flush ∧ ms.Sublist s.resp) ∨
        (∃ p sel ws e, s.phase = .burstWord p sel ws ∧ ws.length + 1 = frameWords p ∧ t.busLog = s.busLog ++ [e] ∧
          ms = [burstMessage p sel (ws ++ [e.received])])) := by
  rcases h.tx_cases with e | ⟨hp, rfl⟩ | ⟨p, sel, ws, w, r, hp, hl, rfl⟩
  · exact ⟨[], by simp [e], .inl rfl⟩
  · obtain ⟨sent, hsub, e⟩ := flush_fold_tx s.resp s
    exact ⟨sent, e, .inr (.inl ⟨hp, hsub⟩)⟩
  · rcases (s.transacted w r).txWrite_tx_cases (frame (burstMessage p sel (ws ++ [r]))) with e | e
    · exact ⟨[burstMessage p sel (ws ++ [r])], by simpa [emitBurst] using e,
        .inr (.inr ⟨p, sel, ws, ⟨s.now, w, r⟩, hp, hl, by simp [emitBurst], rfl⟩)⟩
    · exact ⟨[], by simpa [emitBurst] using e, .inl rfl⟩

theorem envMove_tx_cases (m : Turn) (s : State) :
    (∃ n, m = .hostRead n ∧ (envMove m s).tx = s.tx.drop n) ∨ (envMove m s).tx = s.tx := by
  cases m with
  | hostRead n => exact .inl ⟨n, rfl, rfl⟩
  | _ => exact .inr rfl

/-- Settles O57: the loop appends whole frames within the ceiling, and of the environment only the host's read changes `tx`. -/
theorem outboundHoldsWholeFrames : Obligations.OutboundHoldsWholeFrames := by
  intro s t hstep
  rcases step_cases hstep with ⟨-, h⟩ | ⟨-, rfl⟩
  · exact ⟨h.tx_bound, .inr h.tx_append⟩
  · rcases envMove_tx_cases s.nextTurn s.popTurn with ⟨n, hn, e⟩ | e <;> rw [e]
    · exact ⟨fun hs => (List.drop_sublist n s.tx).length_le.trans hs, .inl ⟨n, hn, rfl⟩⟩
    · exact ⟨id, .inr ⟨[], by simp, .inl rfl⟩⟩

/-! ## The inbound stream and the clock (10_state R33, 20_memory R50, R52, R55) -/

/-- The loop takes inbound bytes at Top only, one chunk from the head. -/
theorem LoopStep.rx_cases {s t : State} (h : LoopStep s t) :
    t.rx = s.rx ∨ (s.phase = .top ∧ ∃ chunk, t.phase = .feed chunk ∧ s.rx = chunk ++ t.rx ∧
      chunk.length ≤ Config.rxChunk) := by
  cases h with
  | topRead hp _ _ =>
    exact .inr ⟨hp, s.rx.take Config.rxChunk, rfl, (List.take_append_drop ..).symm, List.length_take_le ..⟩
  | _ => left; simp

theorem LoopStep.now_eq {s t : State} (h : LoopStep s t) : t.now = s.now := by
  cases h <;> simp

theorem envMove_rx_cases (m : Turn) (s : State) :
    (∃ bs, m = .hostWrite bs ∧ (envMove m s).rx = s.rx ++ bs) ∨ (envMove m s).rx = s.rx := by
  cases m with
  | hostWrite bs => exact .inl ⟨bs, rfl, rfl⟩
  | _ => exact .inr rfl

theorem envMove_now_cases (m : Turn) (s : State) :
    (∃ d, m = .tick d ∧ (envMove m s).now = s.now + d) ∨ (envMove m s).now = s.now := by
  cases m with
  | tick d => exact .inl ⟨d, rfl, rfl⟩
  | _ => exact .inr rfl

/-- Settles O58: the loop reads a chunk at Top and never writes the clock; of the environment only the host's write changes `rx`
and only the tick changes `now`. -/
theorem inboundIsFifoAndTimeOnlyTicks : Obligations.InboundIsFifoAndTimeOnlyTicks := by
  intro s t hstep
  rcases step_cases hstep with ⟨hfw, h⟩ | ⟨-, rfl⟩
  · exact ⟨h.rx_cases.imp id fun hread => .inr ⟨hfw, hread⟩, .inl h.now_eq⟩
  · exact ⟨(envMove_rx_cases s.nextTurn s.popTurn).symm.imp id .inl, (envMove_now_cases s.nextTurn s.popTurn).symm⟩

/-! ## Power-on (10_state R37, 70_reset_and_hazards R144) -/

/-- Settles O24: every register by its value in `State.reset`; the default configuration decodes and encodes `MSC_DEFAULT`. -/
theorem resetIsPowerOn : Obligations.ResetIsPowerOn := by
  have hdec : mscDecode Config.mscDefault =
      { burst32 := .disabled, burstSel := .sel0, linGComp := .enabled, pop := .enabled, bandwidth := .wide,
        syncMode := .mode0, syncPol := .neg, drPol := .pos } := by decide
  have henc : mscEncode (mscDecode Config.mscDefault) = 0x00C1#16 := by decide
  exact ⟨rfl, hdec, henc, rfl, rfl, rfl, rfl, rfl, rfl, rfl, rfl, rfl⟩

/-- An accumulator as at boot meets its invariant (42_framing R105). -/
theorem Accumulator.fresh_wf : Accumulator.fresh.wf where
  idxBound := Nat.zero_le _
  canonical := Memory.wf_nil
  inside := by simp [Accumulator.fresh]
  noSentinel := by simp [Accumulator.fresh]

/-- Settles O25: the accumulator is fresh, the history and the queues are empty, and the line is high. -/
theorem resetSatisfiesInvariant : Obligations.ResetSatisfiesInvariant where
  accWf := Accumulator.fresh_wf
  txBound := Nat.zero_le _
  lastLogged := rfl
  pastLog := by simp [State.reset]
  spaced := .nil
  phaseOk := rfl
  responses := by simp [State.reset]
  lineHigh := by simp [State.reset]

end Sys2Proof.Machine
end

section
/-! The statement of 20_memory: the moves of the host, the sensor and the clock, each with all it changes. -/

namespace Sys2Proof.Machine

/-! ## The environment's moves (20_memory R52, R54, R55) -/

/-- The step at an agent's turn, with the turn named. -/
theorem step_of_envTurn {s : State} {m : Turn} (h : s.nextTurn = m) (hm : m ≠ .fw) :
    step s = .next (envMove m s.popTurn) := by
  subst h
  exact step_env hm

/-- A host read takes at most the bytes present (20_memory R52): `drop` stops at the end of the stream. -/
theorem envMove_hostRead (n : Nat) (s : State) :
    envMove (.hostRead n) s = s.setTx (s.tx.drop (min n s.tx.length)) :=
  congrArg s.setTx List.drop_eq_drop_min

/-- Settles O30: each turn's step is its `envMove`, which replaces the one field the statement names; a host read of more bytes
than are present empties `tx`. -/
theorem stepMakesEnvironmentMoves : Obligations.StepMakesEnvironmentMoves := by
  intro s
  refine ⟨fun bs h => ?hostWrite, fun n h => ?hostRead, fun h => ?drEdge, fun d h => ?tick, fun r h => ?sensorAnswer⟩
  case hostWrite => exact step_of_envTurn h nofun
  case hostRead =>
    rw [step_of_envTurn h nofun, envMove_hostRead]
    rfl
  case drEdge => exact step_of_envTurn h nofun
  case tick => exact step_of_envTurn h nofun
  case sensorAnswer => exact step_of_envTurn h nofun

end Sys2Proof.Machine
end

section
/-! The statements of 30_encoding: the codec as an equivalence of codes and well-formed instructions, the words of register
access, the lengths of the frames, and the step that follows the placing of an opcode-table word. -/

namespace Sys2Proof

/-! ## Value codes (10_state R17): each bit function and its inverse -/

@[simp] theorem Burst32.bit_ofBit (b : Bool) : (Burst32.ofBit b).bit = b := by cases b <;> rfl
@[simp] theorem Burst32.ofBit_bit (v : Burst32) : Burst32.ofBit v.bit = v := by cases v <;> rfl
@[simp] theorem BurstSel.bit_ofBit (b : Bool) : (BurstSel.ofBit b).bit = b := by cases b <;> rfl
@[simp] theorem BurstSel.ofBit_bit (v : BurstSel) : BurstSel.ofBit v.bit = v := by cases v <;> rfl
@[simp] theorem Toggle.bit_ofBit (b : Bool) : (Toggle.ofBit b).bit = b := by cases b <;> rfl
@[simp] theorem Toggle.ofBit_bit (v : Toggle) : Toggle.ofBit v.bit = v := by cases v <;> rfl
@[simp] theorem Bandwidth.bit_ofBit (b : Bool) : (Bandwidth.ofBit b).bit = b := by cases b <;> rfl
@[simp] theorem Bandwidth.ofBit_bit (v : Bandwidth) : Bandwidth.ofBit v.bit = v := by cases v <;> rfl
@[simp] theorem Polarity.bit_ofBit (b : Bool) : (Polarity.ofBit b).bit = b := by cases b <;> rfl
@[simp] theorem Polarity.ofBit_bit (v : Polarity) : Polarity.ofBit v.bit = v := by cases v <;> rfl
@[simp] theorem SyncMode.bits_ofBits (c : BitVec 2) : (SyncMode.ofBits c).bits = c := by revert c; decide
@[simp] theorem SyncMode.ofBits_bits (m : SyncMode) : SyncMode.ofBits m.bits = m := by cases m <;> rfl

/-! ## What decoding answers -/

theorem Decoded.map_eq_ok {α β : Type} {f : α → β} {d : Decoded α} {y : β} :
    d.map f = .ok y ↔ ∃ x, d = .ok x ∧ f x = y := by
  cases d <;> simp [Decoded.map]

/-- Whether decoding rejects, whatever the reason. -/
def Decoded.isRejected {α : Type} : Decoded α → Bool
  | .ok _ => false
  | .rejected _ => true

@[simp] theorem Decoded.isRejected_ok {α : Type} (v : α) : (Decoded.ok v).isRejected = false := rfl
@[simp] theorem Decoded.isRejected_rejected {α : Type} (r : Reject) :
    (Decoded.rejected r : Decoded α).isRejected = true := rfl
@[simp] theorem Decoded.isRejected_map {α β : Type} (f : α → β) (d : Decoded α) :
    (d.map f).isRejected = d.isRejected := by cases d <;> rfl

theorem deserialize_eq_ok {bs : List Byte} {m : Message} : deserialize bs = .ok m ↔ decodeMessage bs = .ok m := by
  unfold deserialize
  cases decodeMessage bs <;> simp

theorem deserialize_eq_err {bs : List Byte} :
    deserialize bs = .err .serializationError ↔ (decodeMessage bs).isRejected = true := by
  unfold deserialize
  cases decodeMessage bs <;> simp

/-! ## CFG fields and selectors (30_encoding R63, R65) -/

@[simp] theorem bitCode_bitByte (b : Bool) : bitCode (bitByte b) = .ok b := by cases b <;> rfl

theorem bitCode_eq_ok {v : Byte} {b : Bool} : bitCode v = .ok b ↔ bitByte b = v := by
  refine ⟨fun h => ?_, fun h => h ▸ bitCode_bitByte b⟩
  unfold bitCode at h
  split_ifs at h with h0 h1
  · cases h; exact h0.symm
  · cases h; exact h1.symm

theorem syncModeCode_eq_ok {v : Byte} {m : SyncMode} : syncModeCode v = .ok m ↔ m.bits.setWidth 8 = v := by
  constructor
  · unfold syncModeCode
    split_ifs with hv <;> rintro ⟨⟩
    rw [SyncMode.bits_ofBits]
    exact BitVec.eq_of_toNat_eq (by simp; omega)
  · rintro rfl
    cases m <;> rfl

/-- A field id and a value code decode to the field they are the codes of, and to no other. -/
theorem decodeField_eq_ok {id v : Byte} {f : ConfigField} :
    decodeField id v = .ok f ↔ fieldId f = id ∧ valueCode f = v := by
  constructor
  · intro h
    unfold decodeField at h
    split at h
    case h_7 hid =>
      obtain ⟨m, hm, rfl⟩ := Decoded.map_eq_ok.1 h
      exact ⟨BitVec.eq_of_toNat_eq hid.symm, syncModeCode_eq_ok.1 hm⟩
    case h_10 => cases h
    all_goals
      obtain ⟨b, hb, rfl⟩ := Decoded.map_eq_ok.1 h
      exact ⟨BitVec.eq_of_toNat_eq (Eq.symm ‹_›), by simpa [valueCode] using bitCode_eq_ok.1 hb⟩
  · rintro ⟨rfl, rfl⟩
    cases f with
    | syncMode m => exact Decoded.map_eq_ok.2 ⟨m, syncModeCode_eq_ok.2 rfl, rfl⟩
    | _ => simp [decodeField, fieldId, valueCode, Decoded.map]

theorem bitCode_isRejected {v : Byte} : (bitCode v).isRejected = true ↔ 1 < v.toNat := by
  unfold bitCode
  split_ifs with h0 h1
  · simp [h0]
  · simp [h1]
  · simp only [Decoded.isRejected_rejected, true_iff]
    bv_omega

theorem syncModeCode_isRejected {v : Byte} : (syncModeCode v).isRejected = true ↔ 3 < v.toNat := by
  unfold syncModeCode
  split_ifs with h <;> simpa using h

theorem decodeField_isRejected {id v : Byte} :
    (decodeField id v).isRejected = true ↔ 8 < id.toNat ∨ Machine.maxCode id.toNat < v.toNat := by
  unfold decodeField
  split
  case h_10 =>
    simp only [imp_false] at *
    simp only [Decoded.isRejected_rejected, true_iff]
    omega
  all_goals simp [*, Machine.maxCode, bitCode_isRejected, syncModeCode_isRejected]

theorem decodeSel_eq_ok {s : Byte} {sel : BurstSel} : decodeSel s = .ok sel ↔ bitByte sel.bit = s := by
  unfold decodeSel
  constructor
  · split_ifs with h0 h1 <;> rintro ⟨⟩
    · exact h0.symm
    · exact h1.symm
  · rintro rfl
    cases sel <;> rfl

theorem decodeSel_isRejected {s : Byte} : (decodeSel s).isRejected = true ↔ 1 < s.toNat := by
  unfold decodeSel
  split_ifs with h0 h1
  · simp [h0]
  · simp [h1]
  · simp only [Decoded.isRejected_rejected, true_iff]
    bv_omega

/-! ## Messages (30_encoding R62 to R69) -/

/-- The payload of a burst message decodes to a selector and exactly `n` words, low bytes first (30_encoding R65, R66). -/
theorem decodeBurst_eq_ok {mk : BurstSel → List Word → Message} {n : Nat} {p : List Byte} {m : Message} :
    decodeBurst mk n p = .ok m ↔
      ∃ sel ws, ws.length = n ∧ mk sel ws = m ∧ bitByte sel.bit :: ws.flatMap wordBytes = p := by
  constructor
  · intro h
    match p with
    | [] => cases h
    | s :: body =>
      rw [decodeBurst] at h
      split_ifs at h with hlen
      obtain ⟨sel, hsel, hm⟩ := Decoded.map_eq_ok.1 h
      obtain ⟨hbytes, hwords⟩ := flatMap_bytesWords hlen
      exact ⟨sel, bytesWords body, hwords, hm, by rw [decodeSel_eq_ok.1 hsel, hbytes]⟩
  · rintro ⟨sel, ws, rfl, rfl, rfl⟩
    rw [decodeBurst, if_pos (length_flatMap_wordBytes ws), bytesWords_flatMap]
    exact Decoded.map_eq_ok.2 ⟨sel, decodeSel_eq_ok.2 rfl, rfl⟩

theorem decodeBurst_isRejected {mk : BurstSel → List Word → Message} {n : Nat} {p : List Byte} :
    (decodeBurst mk n p).isRejected = true ↔ p.length ≠ 2 * n + 1 ∨ 1 < (p.getD 0 0#8).toNat := by
  match p with
  | [] => simp [decodeBurst]
  | s :: body =>
    rw [decodeBurst]
    split_ifs with h <;> simp [h, decodeSel_isRejected]

/-- A tag byte is one of the six, in the order CFG, RQR, B16, B32, RST, ERR, or stands above them (30_encoding R62). -/
theorem tag_cases (tag : Byte) :
    tag = 0x00#8 ∨ tag = 0x01#8 ∨ tag = 0x02#8 ∨ tag = 0x03#8 ∨ tag = 0x04#8 ∨ tag = 0x05#8 ∨ 5 < tag.toNat := by
  bv_omega

theorem decodePayload_unknownTag {tag : Byte} (h : 5 < tag.toNat) (p : List Byte) :
    decodePayload tag p = .rejected .unknownTag := by
  unfold decodePayload
  split
  case h_7 => rfl
  all_goals omega

/-- What decodes to a message is its serialization, and the message has the words its tag asks for. -/
theorem serialize_of_decodePayload {tag : Byte} {p : List Byte} {m : Message} (h : decodePayload tag p = .ok m) :
    m.wf = true ∧ serialize m = tag :: p := by
  rcases tag_cases tag with rfl | rfl | rfl | rfl | rfl | rfl | htag
  · match p with
    | [id, v] =>
      obtain ⟨f, hf, rfl⟩ := Decoded.map_eq_ok.1 h
      obtain ⟨rfl, rfl⟩ := decodeField_eq_ok.1 hf
      exact ⟨rfl, rfl⟩
    | [] | [_] | _ :: _ :: _ :: _ => cases h
  · match p with
    | [lo, hi] =>
      cases h
      exact ⟨rfl, by simp [serialize, wordBytes]⟩
    | [] | [_] | _ :: _ :: _ :: _ => cases h
  · obtain ⟨sel, ws, hws, rfl, rfl⟩ := decodeBurst_eq_ok.1 h
    exact ⟨beq_iff_eq.2 hws, rfl⟩
  · obtain ⟨sel, ws, hws, rfl, rfl⟩ := decodeBurst_eq_ok.1 h
    exact ⟨beq_iff_eq.2 hws, rfl⟩
  · match p with
    | [] => cases h; exact ⟨rfl, rfl⟩
    | _ :: _ => cases h
  · match p with
    | [t] => cases h; exact ⟨rfl, rfl⟩
    | [] | _ :: _ :: _ => cases h
  · rw [decodePayload_unknownTag htag] at h; cases h

/-- A message with the words its tag asks for decodes from its serialization. -/
theorem decodeMessage_serialize {m : Message} (h : m.wf = true) : decodeMessage (serialize m) = .ok m := by
  cases m with
  | cfg f => exact Decoded.map_eq_ok.2 ⟨f, decodeField_eq_ok.2 ⟨rfl, rfl⟩, rfl⟩
  | rqr v => exact congrArg (fun w => Decoded.ok (Message.rqr w)) (wordOf_loByte_hiByte v)
  | b16 sel ws => exact decodeBurst_eq_ok.2 ⟨sel, ws, beq_iff_eq.1 h, rfl, rfl⟩
  | b32 sel ws => exact decodeBurst_eq_ok.2 ⟨sel, ws, beq_iff_eq.1 h, rfl, rfl⟩
  | rst => rfl
  | err t => rfl

/-- The bytes that decode to a message are its serialization, and no other (30_encoding R69). -/
theorem decodeMessage_eq_ok {bs : List Byte} {m : Message} :
    decodeMessage bs = .ok m ↔ m.wf = true ∧ serialize m = bs := by
  refine ⟨fun h => ?_, fun ⟨hwf, hbs⟩ => hbs ▸ decodeMessage_serialize hwf⟩
  match bs with
  | [] => cases h
  | tag :: p => exact serialize_of_decodePayload h

/-- The serializations of two well-formed messages are equal only where the messages are (30_encoding R69). -/
theorem serialize_injective {m m' : Message} (h : m.wf = true) (h' : m'.wf = true)
    (heq : serialize m = serialize m') : m = m' := by
  have hm : Decoded.ok m = Decoded.ok m' := by
    rw [← decodeMessage_serialize h, ← decodeMessage_serialize h', heq]
  cases hm
  rfl

/-- The listed reasons to reject the bytes `tag :: p`: an unknown tag, a length other than the tag's, a field id or a value code
out of range, a selector out of range (30_encoding R69). -/
theorem decodePayload_isRejected {tag : Byte} {p : List Byte} :
    (decodePayload tag p).isRejected = true ↔
      5 < tag.toNat ∨ p.length + 1 ≠ Machine.tagLength tag.toNat ∨
        (tag = 0x00#8 ∧ (8 < (p.getD 0 0#8).toNat ∨ Machine.maxCode (p.getD 0 0#8).toNat < (p.getD 1 0#8).toNat)) ∨
        ((tag = 0x02#8 ∨ tag = 0x03#8) ∧ 1 < (p.getD 0 0#8).toNat) := by
  rcases tag_cases tag with rfl | rfl | rfl | rfl | rfl | rfl | htag
  · match p with
    | [id, v] => simp [decodePayload, Machine.tagLength, decodeField_isRejected]
    | [] | [_] | _ :: _ :: _ :: _ => simp [decodePayload, Machine.tagLength]
  · match p with
    | [] | [_] | [_, _] | _ :: _ :: _ :: _ => simp [decodePayload, Machine.tagLength]
  · simp [decodePayload, decodeBurst_isRejected, Machine.tagLength]
  · simp [decodePayload, decodeBurst_isRejected, Machine.tagLength]
  · cases p <;> simp [decodePayload, Machine.tagLength]
  · match p with
    | [] | [_] | _ :: _ :: _ => simp [decodePayload, Machine.tagLength]
  · simp [decodePayload_unknownTag htag, htag]

/-- Settles O3: acceptance is `decodeMessage_eq_ok`, and the reasons to reject are those of the tag and the payload. -/
theorem deserializeAcceptsExactlySerialized : Obligations.DeserializeAcceptsExactlySerialized := by
  refine ⟨fun bs m => deserialize_eq_ok.trans decodeMessage_eq_ok, fun bs => ?_, fun m m' => serialize_injective⟩
  rw [deserialize_eq_err]
  match bs with
  | [] => simp [decodeMessage]
  | tag :: p => simpa [decodeMessage] using decodePayload_isRejected

/-! ## Bus words (30_encoding R57 to R61) -/

theorem toNat_request (addr : Byte) : (request addr).toNat = addr.toNat * 256 % 65536 := by
  simp [request, Nat.shiftLeft_eq]

@[simp] theorem loByte_request (addr : Byte) : loByte (request addr) = 0x00#8 := by
  unfold loByte request
  ext i hi
  simp [hi]

@[simp] theorem hiByte_request (addr : Byte) : hiByte (request addr) = addr := by
  unfold hiByte request
  ext i hi
  interval_cases i <;> simp [← BitVec.getLsbD_eq_getElem]

theorem request_getLsbD_15 (addr : Byte) : (request addr).getLsbD 15 = addr.getLsbD 7 := by simp [request]

theorem writeByteWord_getLsbD_15 (target : BitVec 7) (data : Byte) :
    (writeByteWord target data).getLsbD 15 = true := by simp [writeByteWord]

@[simp] theorem writeByteWord_target (target : BitVec 7) (data : Byte) :
    (writeByteWord target data).extractLsb' 8 7 = target := by
  unfold writeByteWord
  ext i hi
  interval_cases i <;> simp [← BitVec.getLsbD_eq_getElem]

@[simp] theorem loByte_writeByteWord (target : BitVec 7) (data : Byte) : loByte (writeByteWord target data) = data := by
  unfold loByte writeByteWord
  ext i hi
  interval_cases i <;> simp [← BitVec.getLsbD_eq_getElem]

/-- Bit 15 makes a word a write byte: BURST_CMD and FILL have it clear (30_encoding R58, R61). -/
theorem decodeBus_of_getLsbD_15 {w : Word} (h : w.getLsbD 15 = true) :
    decodeBus w = .ok (.writeByte (w.extractLsb' 8 7) (loByte w)) := by
  have hcmd : w ≠ Config.burstCmd := by rintro rfl; exact absurd h (by decide)
  have hfill : w ≠ Config.fill := by rintro rfl; exact absurd h (by decide)
  rw [decodeBus, if_neg hcmd, if_neg hfill, if_pos h]

theorem readReqCanonical_iff {addr : Byte} :
    readReqCanonical addr = true ↔ addr ≠ 0x68#8 ∧ addr ≠ 0x00#8 ∧ addr.getLsbD 7 = false := by
  simp [readReqCanonical, and_assoc]

/-- The request of an address that no more specific row claims decodes to itself (30_encoding R57, R61). -/
theorem decodeBus_request {addr : Byte} (h : readReqCanonical addr = true) :
    decodeBus (request addr) = .ok (.readReq addr) := by
  obtain ⟨hcmd, hfill, hbit⟩ := readReqCanonical_iff.1 h
  have hcmd : request addr ≠ Config.burstCmd := fun e =>
    hcmd (by rw [← hiByte_request addr, e]; rfl)
  have hfill : request addr ≠ Config.fill := fun e =>
    hfill (by rw [← hiByte_request addr, e]; rfl)
  have hbit : ¬(request addr).getLsbD 15 = true := by rw [request_getLsbD_15, hbit]; decide
  rw [decodeBus, if_neg hcmd, if_neg hfill, if_neg hbit, if_pos (loByte_request addr), hiByte_request]

/-- The word that decodes to an instruction is its encoding, and the instruction is well-formed. -/
theorem encode_of_decodeBus {w : Word} {i : Instr} (h : decodeBus w = .ok i) :
    i.wf = true ∧ encode i = .bus w := by
  unfold decodeBus at h
  split_ifs at h with hcmd hfill hbit hlo <;> cases h
  · exact ⟨rfl, by rw [hcmd]; rfl⟩
  · exact ⟨rfl, by rw [hfill]; rfl⟩
  · exact ⟨rfl, congrArg Code.bus (Machine.writeByteWord_extract hbit)⟩
  · have hw : request (hiByte w) = w := Machine.request_hiByte hlo
    refine ⟨readReqCanonical_iff.2 ⟨fun e => hcmd ?_, fun e => hfill ?_, ?_⟩, congrArg Code.bus hw⟩
    · rw [← hw, e]; rfl
    · rw [← hw, e]; rfl
    · rw [← request_getLsbD_15, hw]; simpa using hbit

/-- A well-formed instruction that encodes to a bus word decodes from it. -/
theorem decodeBus_of_encode {w : Word} {i : Instr} (hwf : i.wf = true) (h : encode i = .bus w) :
    decodeBus w = .ok i := by
  cases i <;> simp only [encode, Code.bus.injEq, reduceCtorEq] at h <;> subst h
  case burstCmd => rfl
  case fill => rfl
  case readReq addr => exact decodeBus_request hwf
  case writeByte target data =>
    rw [decodeBus_of_getLsbD_15 (writeByteWord_getLsbD_15 target data), writeByteWord_target, loByte_writeByteWord]

/-! ## Decoding and encoding are inverse -/

/-- A code decodes to an instruction exactly when the instruction is well-formed and encodes to that code. -/
theorem decode_eq_ok {c : Code} {i : Instr} : decode c = .ok i ↔ i.wf = true ∧ encode i = c := by
  cases c with
  | bus w => exact ⟨encode_of_decodeBus, fun ⟨hwf, h⟩ => decodeBus_of_encode hwf h⟩
  | msg bs =>
    constructor
    · intro h
      obtain ⟨m, hm, rfl⟩ := Decoded.map_eq_ok.1 h
      obtain ⟨hwf, rfl⟩ := decodeMessage_eq_ok.1 hm
      exact ⟨(instr_wf m).trans hwf, encode_instr m⟩
    · rintro ⟨hwf, h⟩
      rcases i.message_or_bus with ⟨m, rfl⟩ | ⟨w, hw⟩
      · rw [encode_instr, Code.msg.injEq] at h
        exact Decoded.map_eq_ok.2 ⟨m, decodeMessage_eq_ok.2 ⟨(instr_wf m).symm.trans hwf, h⟩, rfl⟩
      · cases hw.symm.trans h

/-- Settles O1: `decode_eq_ok` at the instruction's own code. -/
theorem decodeOfEncodeIsIdentity : Obligations.DecodeOfEncodeIsIdentity :=
  fun _ hwf => decode_eq_ok.2 ⟨hwf, rfl⟩

/-- Settles O2: the other direction of `decode_eq_ok`. -/
theorem encodeOfDecodeIsIdentity : Obligations.EncodeOfDecodeIsIdentity :=
  fun _ _ h => (decode_eq_ok.1 h).symm

/-- Settles O4: each accepted code is the encoding of the instruction it stands for, so `decode_eq_ok` applies to it; the two
rejected ones are evaluated. -/
theorem specWordsDecode : Obligations.SpecWordsDecode := by
  unfold Obligations.SpecWordsDecode
  simp only [decode_eq_ok]
  decide

/-! ## The words of register access (30_encoding R58, 41_codec R82 to R84) -/

/-- A word of a register write: bit 15, the low seven bits of the target and the data byte, where `d` holds no more than the data
byte (30_encoding R58). -/
theorem writeWord_fields (t d : Word) (hd : d.toNat < 256) :
    (t <<< 8 ||| d ||| 0x8000#16).getLsbD 15 = true ∧
      (t <<< 8 ||| d ||| 0x8000#16).extractLsb' 8 7 = t.extractLsb' 0 7 ∧
      (t <<< 8 ||| d ||| 0x8000#16).extractLsb' 0 8 = d.extractLsb' 0 8 := by
  have hhigh : ∀ i, 8 ≤ i → d.getLsbD i = false := fun i hi =>
    Nat.testBit_lt_two_pow (hd.trans_le (Nat.pow_le_pow_right (n := 2) (by omega) hi))
  refine ⟨by simp, ?_, ?_⟩
  · ext i hi
    interval_cases i <;> simp [← BitVec.getLsbD_eq_getElem, hhigh]
  · ext i hi
    interval_cases i <;> simp [← BitVec.getLsbD_eq_getElem]

/-- The second word's target is `(addr + 1) mod 256`: the sum in 16 bits has its low bits (30_encoding R58). -/
theorem extractLsb'_addr_succ (addr : Byte) :
    (addr.setWidth 16 + 1#16 : Word).extractLsb' 0 7 = (addr + 1#8).extractLsb' 0 7 := by
  apply BitVec.eq_of_toNat_eq
  simp

/-- Settles O5: a request is a shift by 8 bits; both words of a write have the form of `writeWord_fields`. -/
theorem registerAccessWords : Obligations.RegisterAccessWords := by
  refine ⟨toNat_request, by decide, by decide, by decide, fun addr h => ?bit15, fun addr data => ?pair, by decide,
    fun addr => rfl⟩
  case bit15 =>
    rw [request_getLsbD_15]
    exact (BitVec.msb_eq_decide addr).trans (decide_eq_true h)
  case pair =>
    have hlo : (data &&& 0x00FF#16).toNat < 256 := by
      rw [BitVec.toNat_and]
      exact Nat.and_lt_two_pow (n := 8) _ (by decide)
    have hhi : (data >>> 8).toNat < 256 := by
      rw [BitVec.toNat_ushiftRight, Nat.shiftRight_eq_div_pow]
      have := data.isLt
      omega
    obtain ⟨lo15, loTarget, loData⟩ := writeWord_fields (addr.setWidth 16) _ hlo
    obtain ⟨hi15, hiTarget, hiData⟩ := writeWord_fields (addr.setWidth 16 + 1#16) _ hhi
    refine ⟨_, _, rfl, rfl, rfl, lo15, loTarget.trans ?_, loData.trans ?_, hi15,
      hiTarget.trans (extractLsb'_addr_succ addr), hiData.trans ?_⟩
    · ext i hi
      simp
      omega
    · ext i hi
      interval_cases i <;> simp [← BitVec.getLsbD_eq_getElem]
    · ext i hi
      simp

end Sys2Proof

namespace Sys2Proof.Machine

/-! ## COBS (42_framing R102, R103) -/

@[simp] theorem length_cobsBlock (blk : List Byte) : (cobsBlock blk).length = blk.length + 1 := rfl

/-- The pending block and fewer than 254 bytes in all close one block fewer than 255: one code byte is added. -/
theorem length_cobsEncodeFrom (bs blk : List Byte) (h : blk.length + bs.length < 254) :
    (cobsEncodeFrom bs blk).length = blk.length + bs.length + 1 := by
  induction bs generalizing blk with
  | nil => rfl
  | cons b bs ih =>
    rw [List.length_cons] at h ⊢
    rw [cobsEncodeFrom]
    split_ifs with hb hfull
    · have hrest := ih [] (by simp; omega)
      simp [hrest]
      omega
    · omega
    · have hrest := ih (blk ++ [b]) (by simp; omega)
      simp at hrest
      omega

/-- Fewer than 254 bytes are stuffed with one code byte more (42_framing R102). -/
theorem length_cobsEncode {data : List Byte} (h : data.length < 254) : (cobsEncode data).length = data.length + 1 := by
  have hfrom := length_cobsEncodeFrom data [] (by simpa using h)
  simpa [cobsEncode] using hfrom

/-- What the encoder's pending block may be: fewer than 254 bytes, none of them a sentinel (42_framing R102). -/
structure PendingBlock (blk : List Byte) : Prop where
  short : blk.length < 254
  noSentinel : ∀ b ∈ blk, b ≠ Config.sentinel

theorem pendingBlock_nil : PendingBlock [] where
  short := by decide
  noSentinel := by simp

/-- A data byte leaves no sentinel in the block it joins. -/
theorem PendingBlock.append_noSentinel {blk : List Byte} {b : Byte} (h : PendingBlock blk) (hb : b ≠ Config.sentinel) :
    ∀ c ∈ blk ++ [b], c ≠ Config.sentinel :=
  List.forall_mem_append.2 ⟨h.noSentinel, by simpa using hb⟩

theorem PendingBlock.append {blk : List Byte} {b : Byte} (h : PendingBlock blk) (hb : b ≠ Config.sentinel)
    (hroom : blk.length + 2 ≠ 255) : PendingBlock (blk ++ [b]) where
  short := by
    have hshort := h.short
    rw [List.length_append, List.length_singleton]
    omega
  noSentinel := h.append_noSentinel hb

/-- The code byte of a finished block, in numbers. -/
theorem toNat_cobsCode {n : Nat} (h : n ≤ 254) : (BitVec.ofNat 8 (n + 1) : Byte).toNat = n + 1 := by
  rw [BitVec.toNat_ofNat]
  omega

theorem cobsCode_ne_sentinel {n : Nat} (h : n ≤ 254) : (BitVec.ofNat 8 (n + 1) : Byte) ≠ Config.sentinel := by
  intro e
  have := congrArg BitVec.toNat e
  rw [toNat_cobsCode h] at this
  simp [Config.sentinel] at this

theorem cobsBlock_ne_sentinel {blk : List Byte} (hlen : blk.length ≤ 254) (hne : ∀ b ∈ blk, b ≠ Config.sentinel) :
    ∀ b ∈ cobsBlock blk, b ≠ Config.sentinel := by
  simp only [cobsBlock, List.mem_cons]
  rintro b (rfl | hb)
  · exact cobsCode_ne_sentinel hlen
  · exact hne b hb

theorem cobsEncodeFrom_ne_sentinel (bs : List Byte) {blk : List Byte} (h : PendingBlock blk) :
    ∀ b ∈ cobsEncodeFrom bs blk, b ≠ Config.sentinel := by
  induction bs generalizing blk with
  | nil => exact cobsBlock_ne_sentinel h.short.le h.noSentinel
  | cons b bs ih =>
    rw [cobsEncodeFrom]
    split_ifs with hb hfull
    · exact List.forall_mem_append.2 ⟨cobsBlock_ne_sentinel h.short.le h.noSentinel, ih pendingBlock_nil⟩
    · refine List.forall_mem_append.2 ⟨cobsBlock_ne_sentinel (by simp; omega) (h.append_noSentinel hb), ih pendingBlock_nil⟩
    · exact ih (h.append hb hfull)

/-- The encoder writes no sentinel (42_framing R102). -/
theorem cobsEncode_ne_sentinel (data : List Byte) : ∀ b ∈ cobsEncode data, b ≠ Config.sentinel :=
  cobsEncodeFrom_ne_sentinel data pendingBlock_nil

/-- The data bytes of a block are taken as they stand (42_framing R103). -/
theorem cobsDecodeFrom_data {blk rest out : List Byte} {zero : Bool} (hne : ∀ b ∈ blk, b ≠ Config.sentinel)
    (h : cobsDecodeFrom rest 0 zero = .ok out) :
    cobsDecodeFrom (blk ++ rest) blk.length zero = .ok (blk ++ out) := by
  induction blk with
  | nil => exact h
  | cons b blk ih =>
    obtain ⟨hb, hblk⟩ := List.forall_mem_cons.1 hne
    simp [cobsDecodeFrom, hb, ih hblk, consResult]

/-- What the decoder writes before a block that another one precedes: the 0x00 the preceding one stands for, if it does. -/
def impliedZero (zero : Bool) : List Byte := if zero then [Config.sentinel] else []

/-- A finished block decodes to its data, after the 0x00 the block before it stands for; it stands for one itself unless it is
full (42_framing R103). -/
theorem cobsDecodeFrom_cobsBlock {blk rest out : List Byte} (zero : Bool) (hlen : blk.length ≤ 254)
    (hne : ∀ b ∈ blk, b ≠ Config.sentinel)
    (h : cobsDecodeFrom rest 0 (decide (blk.length ≠ 254)) = .ok out) :
    cobsDecodeFrom (cobsBlock blk ++ rest) 0 zero = .ok (impliedZero zero ++ (blk ++ out)) := by
  have hcode := cobsCode_ne_sentinel hlen
  have hleft : (BitVec.ofNat 8 (blk.length + 1) : Byte).toNat - 1 = blk.length := by rw [toNat_cobsCode hlen]; rfl
  have hfull : ((BitVec.ofNat 8 (blk.length + 1) : Byte) != 0xFF#8) = decide (blk.length ≠ 254) := by
    rw [Bool.eq_iff_iff, bne_iff_ne, decide_eq_true_iff, ne_eq, ne_eq, not_iff_not, ← BitVec.toNat_inj,
      toNat_cobsCode hlen]
    simp
  have hdata := cobsDecodeFrom_data hne h
  rw [cobsBlock, List.cons_append, cobsDecodeFrom, if_neg hcode, hleft, hfull, hdata]
  cases zero <;> rfl

theorem cobsDecodeFrom_cobsEncodeFrom (bs : List Byte) {blk : List Byte} (zero : Bool) (h : PendingBlock blk) :
    cobsDecodeFrom (cobsEncodeFrom bs blk) 0 zero = .ok (impliedZero zero ++ (blk ++ bs)) := by
  induction bs generalizing blk zero with
  | nil =>
    have hblk := cobsDecodeFrom_cobsBlock (rest := []) zero h.short.le h.noSentinel rfl
    rwa [List.append_nil] at hblk
  | cons b bs ih =>
    rw [cobsEncodeFrom]
    split_ifs with hb hfull
    · have hnotFull : decide (blk.length ≠ 254) = true := decide_eq_true h.short.ne
      rw [cobsDecodeFrom_cobsBlock zero h.short.le h.noSentinel (by rw [hnotFull]; exact ih true pendingBlock_nil)]
      simp [impliedZero, hb]
    · have hisFull : decide ((blk ++ [b]).length ≠ 254) = false := decide_eq_false (by simp; omega)
      rw [cobsDecodeFrom_cobsBlock zero (by simp; omega) (h.append_noSentinel hb)
        (by rw [hisFull]; exact ih false pendingBlock_nil)]
      simp [impliedZero]
    · rw [ih zero (h.append hb hfull)]
      simp

/-- The decoder inverts the encoder (42_framing R102, R103). -/
theorem cobsDecode_cobsEncode (data : List Byte) : cobsDecode (cobsEncode data) = .ok data :=
  cobsDecodeFrom_cobsEncodeFrom data false pendingBlock_nil

/-! ## Frame lengths (30_encoding R62, R71) -/

theorem length_serialize_cfg (f : ConfigField) : (serialize (.cfg f)).length = 3 := rfl
theorem length_serialize_rqr (v : Word) : (serialize (.rqr v)).length = 3 := rfl
theorem length_serialize_err (t : Byte) : (serialize (.err t)).length = 2 := rfl
theorem length_serialize_b16 (sel : BurstSel) {ws : List Word} (h : ws.length = 10) :
    (serialize (.b16 sel ws)).length = 22 := by
  simp only [serialize, List.length_cons, length_flatMap_wordBytes, h]
theorem length_serialize_b32 (sel : BurstSel) {ws : List Word} (h : ws.length = 16) :
    (serialize (.b32 sel ws)).length = 34 := by
  simp only [serialize, List.length_cons, length_flatMap_wordBytes, h]

/-- The longest message is B32 (30_encoding R62). -/
theorem length_serialize_le {m : Message} (h : m.wf = true) : (serialize m).length ≤ 34 := by
  cases m with
  | cfg f => exact (length_serialize_cfg f).le.trans (by decide)
  | rqr v => exact (length_serialize_rqr v).le.trans (by decide)
  | b16 sel ws => exact (length_serialize_b16 sel (beq_iff_eq.1 h)).le.trans (by decide)
  | b32 sel ws => exact (length_serialize_b32 sel (beq_iff_eq.1 h)).le
  | rst => decide
  | err t => exact (length_serialize_err t).le.trans (by decide)

/-- A frame adds two sentinels and, to a short message, one code byte (30_encoding R71). -/
theorem length_frame {m : Message} {n : Nat} (h : (serialize m).length = n) (hn : n < 254) :
    (frame m).length = n + 3 := by
  subst h
  simp [frame, length_cobsEncode hn]

/-- Settles O17: `length_frame` at the length of each message. -/
theorem frameLengths : Obligations.FrameLengths := by
  refine ⟨fun m hwf => ?_, fun f => length_frame (length_serialize_cfg f) (by decide),
    fun v => length_frame (length_serialize_rqr v) (by decide),
    fun sel ws hws => length_frame (length_serialize_b16 sel hws) (by decide),
    fun sel ws hws => length_frame (length_serialize_b32 sel hws) (by decide),
    length_frame (n := 1) rfl (by decide), fun t => length_frame (length_serialize_err t) (by decide)⟩
  have hlen := length_serialize_le hwf
  have hframe := length_frame (m := m) rfl (by omega)
  simp only [Config.txCap, Config.accCap]
  omega

/-! ## A placed code (30_encoding R81, 43_firmware_loop R113) -/

theorem unframe_cobsEncode (bs : List Byte) : unframe (cobsEncode bs) = deserialize bs := by
  rw [unframe, cobsDecode_cobsEncode]

/-- A stuffed message and a sentinel, fed into an empty accumulator, are a frame with that message (42_framing R107). -/
theorem Accumulator.feed_cobsEncode {a : Accumulator} {bs : List Byte} {m : Message} (hbuf : a.buf.wf) (hidx : a.idx = 0)
    (hm : decodeMessage bs = .ok m) (rest : List Byte) :
    ∃ buf, a.feed (cobsEncode bs ++ Config.sentinel :: rest) = (.success m rest, { buf := buf, idx := 0 }) := by
  obtain ⟨hwf, hbs⟩ := decodeMessage_eq_ok.1 hm
  have hlen : (cobsEncode bs).length ≤ 35 := by
    have hle := length_serialize_le hwf
    rw [hbs] at hle
    rw [length_cobsEncode (by omega)]
    omega
  have hfits : ¬Config.accCap < a.idx + ((cobsEncode bs).length + 1) := by
    simp only [Config.accCap, hidx]
    omega
  have hread := Memory.readBytes_zero_writeBytes hbuf a.idx (cobsEncode bs) [Config.sentinel]
  have hunframe : unframe (a.buf.readBytes 0 a.idx ++ cobsEncode bs) = .ok m := by
    rw [hidx]
    exact (unframe_cobsEncode bs).trans (deserialize_eq_ok.2 hm)
  refine ⟨a.buf.writeBytes a.idx (cobsEncode bs ++ [Config.sentinel]), ?_⟩
  rw [Accumulator.feed_some (splitSentinel_append (cobsEncode_ne_sentinel bs) rest), Accumulator.feedFrame, if_neg hfits]
  simp only [hread, hunframe]

/-- The word's sending phase for a placed bus word (log 14). -/
theorem sentWord_phaseFor (w : Word) (m : MscCtrl) : sentWord (phaseFor w m) = some w := by
  unfold phaseFor
  split_ifs with hcmd hfill
  · exact congrArg some hcmd.symm
  · exact congrArg some hfill.symm
  · rfl

/-- Dispatch in the running loop, up to the accumulator: the message's instruction is what runs. -/
theorem dispatchMessage_eq_exec (acc : Accumulator) (m : Message) {s : State} (h : s.phase.isFault = false) :
    ∃ a, dispatchMessage acc m s = exec m.instr (s.setAcc a) := by
  rcases dispatchMessage_cases acc m h with ⟨-, e, -⟩ | ⟨rfl, hclock, e⟩
  · exact ⟨s.acc, e⟩
  · refine ⟨acc, e.trans ?_⟩
    rw [exec_instr .rst (s := s.setAcc acc) h, dispatched, startReset, withClock_err (s := s.setAcc acc) hclock]

/-- A FEED that completes a message dispatches it (43_firmware_loop R113). -/
theorem feedStep_success {s : State} {rem rest : List Byte} {m : Message} {a : Accumulator}
    (h : s.acc.feed rem = (.success m rest, a)) :
    feedStep rem s = dispatchMessage s.acc m ((s.setAcc a).setPhase (.feed rest)) := by
  have hne : rem ≠ [] := by
    rintro rfl
    cases h
  rw [feedStep, if_neg hne, h]

theorem decodeTableWord_eq_some {nbits w : Nat} {i : Instr} :
    decodeTableWord nbits w = some i ↔ decode (tableCode nbits w) = .ok i := by
  unfold decodeTableWord
  cases decode (tableCode nbits w) <;> simp

/-- The step after a bus word is placed runs the instruction the word decodes to (log 14). -/
theorem step_place_bus {w : Word} {i : Instr} (s : State) (h : decode (.bus w) = .ok i) :
    step (s.place (.bus w)) = exec i (s.place (.bus w)).popTurn := by
  have hsent : sentWord (s.place (.bus w)).popTurn.phase = some w := sentWord_phaseFor w s.cfg.mscCtrl
  rw [step_fw rfl, fwStep_of_sentWord hsent, exec_decodeBus h, runXfer, whileRunning_next (isFault_of_sentWord hsent)]

/-- The step after a message is placed runs the message's instruction, in the feed of an empty rest (log 14). -/
theorem step_place_msg {bs : List Byte} {i : Instr} {s : State} (hacc : s.acc.wf) (h : decode (.msg bs) = .ok i) :
    ∃ a, step (s.place (.msg bs)) = exec i (((s.place (.msg bs)).popTurn.setPhase (.feed [])).setAcc a) := by
  obtain ⟨m, hm, rfl⟩ := Decoded.map_eq_ok.1 h
  obtain ⟨buf, hfeed⟩ := Accumulator.feed_cobsEncode (a := { s.acc with idx := 0 }) hacc.canonical rfl hm []
  obtain ⟨a, hexec⟩ := dispatchMessage_eq_exec { s.acc with idx := 0 } m
    (s := ((s.place (.msg bs)).popTurn.setAcc { buf := buf, idx := 0 }).setPhase (.feed [])) rfl
  exact ⟨a, (step_fw rfl).trans ((feedStep_success hfeed).trans hexec)⟩

/-- Settles O31: a placed bus word is sent by its phase, and a placed message is the frame fed next. -/
theorem placedWordRunsNext : Obligations.PlacedWordRunsNext := by
  intro s nbits w i hacc htable
  have hdecode := decodeTableWord_eq_some.1 htable
  rw [State.withFetchWord]
  generalize tableCode nbits w = c at hdecode ⊢
  cases c with
  | bus w' =>
    refine ⟨_, step_place_bus s hdecode, rfl, rfl, rfl, rfl, rfl, rfl, rfl, rfl, rfl, ?_⟩
    exact isFault_of_sentWord (sentWord_phaseFor w' s.cfg.mscCtrl)
  | msg bs =>
    obtain ⟨a, hstep⟩ := step_place_msg hacc hdecode
    exact ⟨_, hstep, rfl, rfl, rfl, rfl, rfl, rfl, rfl, rfl, rfl, rfl⟩

end Sys2Proof.Machine
end

section
/-! The statements of 41_codec: the register words, the checksum and its flag, the raw values and the decode of a burst frame, and
the variant lookups. -/

namespace Sys2Proof

/-! ## MscCtrl and its register word (41_codec R93 to R95) -/

theorem Burst32.bit_iff {v : Burst32} : v.bit = true ↔ v = .enabled := by cases v <;> decide
theorem BurstSel.bit_iff {v : BurstSel} : v.bit = true ↔ v = .sel1 := by cases v <;> decide
theorem Toggle.bit_iff {v : Toggle} : v.bit = true ↔ v = .enabled := by cases v <;> decide
theorem Bandwidth.bit_iff {v : Bandwidth} : v.bit = true ↔ v = .narrow := by cases v <;> decide
theorem Polarity.bit_iff {v : Polarity} : v.bit = true ↔ v = .pos := by cases v <;> decide

theorem SyncMode.bits_getLsbD_1 {m : SyncMode} : m.bits.getLsbD 1 = true ↔ m = .mode2 ∨ m = .mode3 := by
  cases m <;> decide

theorem SyncMode.bits_getLsbD_0 {m : SyncMode} : m.bits.getLsbD 0 = true ↔ m = .mode1 ∨ m = .mode3 := by
  cases m <;> decide

theorem SyncMode.ofBits_eq_iff {c : BitVec 2} {m : SyncMode} : SyncMode.ofBits c = m ↔ c = m.bits :=
  ⟨fun h => by rw [← h, SyncMode.bits_ofBits], fun h => by rw [h, SyncMode.ofBits_bits]⟩

theorem getLsbD_bitAt (b : Bool) (i j : Nat) : (bitAt b i).getLsbD j = (b && decide (i = j) && decide (j < 16)) := by
  unfold bitAt
  rcases lt_trichotomy i j with h | rfl | h
  · have : j - i ≠ 0 := by omega
    simp [h.ne, this]
  · simp [Bool.and_comm]
  · simp [h, h.ne']

/-- The layout of the register word, bit by bit: the code bit that stands at each position, 0 at a reserved one
(30_encoding R75, R76). -/
def mscBit (m : MscCtrl) : Nat → Bool
  | 12 => m.bandwidth.bit
  | 9 => m.burst32.bit
  | 8 => m.burstSel.bit
  | 7 => m.linGComp.bit
  | 6 => m.pop.bit
  | 3 => m.syncMode.bits.getLsbD 1
  | 2 => m.syncMode.bits.getLsbD 0
  | 1 => m.syncPol.bit
  | 0 => m.drPol.bit
  | _ => false

theorem getLsbD_mscEncode (m : MscCtrl) {i : Nat} (hi : i < 16) : (mscEncode m).getLsbD i = mscBit m i := by
  interval_cases i <;> simp [-BitVec.getLsbD_eq_getElem, mscEncode, mscBit, getLsbD_bitAt]

/-- The two bits of the sync mode stand side by side. -/
theorem extractLsb'_mscEncode (m : MscCtrl) : (mscEncode m).extractLsb' 2 2 = m.syncMode.bits := by
  ext i hi
  interval_cases i <;> simp [← BitVec.getLsbD_eq_getElem, getLsbD_mscEncode, mscBit]

theorem mscDecode_mscEncode (m : MscCtrl) : mscDecode (mscEncode m) = m := by
  simp [-BitVec.getLsbD_eq_getElem, mscDecode, getLsbD_mscEncode, extractLsb'_mscEncode, mscBit]

/-- Encoding what was decoded keeps the modeled bits, at the positions of the mask, and no other. -/
theorem mscEncode_mscDecode (w : Word) : mscEncode (mscDecode w) = w &&& 0x13CF#16 := by
  apply BitVec.eq_of_getLsbD_eq
  intro i hi
  rw [getLsbD_mscEncode _ hi]
  interval_cases i <;> simp [mscBit, mscDecode]

/-- Settles O6: each field is read off the layout bit by bit; the claims about the reserved bits follow from the two round
trips. -/
theorem mscRegisterRoundTrip : Obligations.MscRegisterRoundTrip := by
  refine ⟨fun m => ?encoded, fun w => ?decoded, mscDecode_mscEncode, mscEncode_mscDecode, fun m => ?written,
    fun w => ?ignored⟩
  case encoded =>
    simp [-BitVec.getLsbD_eq_getElem, getLsbD_mscEncode, mscBit, Burst32.bit_iff, BurstSel.bit_iff, Toggle.bit_iff,
      Bandwidth.bit_iff, Polarity.bit_iff, SyncMode.bits_getLsbD_1, SyncMode.bits_getLsbD_0]
  case decoded =>
    simp [mscDecode, ← Burst32.bit_iff, ← BurstSel.bit_iff, ← Toggle.bit_iff, ← Bandwidth.bit_iff, ← Polarity.bit_iff,
      SyncMode.ofBits_eq_iff, SyncMode.bits]
  case written =>
    calc mscEncode m &&& 0xEC30#16 = mscEncode (mscDecode (mscEncode m)) &&& 0xEC30#16 := by rw [mscDecode_mscEncode]
      _ = mscEncode m &&& (0x13CF#16 &&& 0xEC30#16) := by rw [mscEncode_mscDecode, BitVec.and_assoc]
      _ = 0x0000#16 := BitVec.and_zero
  case ignored => rw [← mscEncode_mscDecode, mscDecode_mscEncode]

/-! ## DiagStat (41_codec R96) -/

theorem diagDecode_eq_iff {w w' : Word} :
    diagDecode w = diagDecode w' ↔ ∀ i, 1 ≤ i → i ≤ 10 → w.getLsbD i = w'.getLsbD i := by
  constructor
  · intro h i h1 h10
    injection h
    interval_cases i <;> assumption
  · intro h
    simp [-BitVec.getLsbD_eq_getElem, diagDecode, h]

/-- The mask of DiagStat holds the positions 1 to 10. -/
theorem and_diagMask_eq_iff {w w' : Word} :
    w &&& 0x07FE#16 = w' &&& 0x07FE#16 ↔ ∀ i, 1 ≤ i → i ≤ 10 → w.getLsbD i = w'.getLsbD i := by
  have hmask : ∀ i < 16, (0x07FE#16).getLsbD i = decide (1 ≤ i ∧ i ≤ 10) := by decide
  constructor
  · intro h i h1 h10
    have hbit := congrArg (BitVec.getLsbD · i) h
    simpa [hmask i (by omega), h1, h10] using hbit
  · intro h
    apply BitVec.eq_of_getLsbD_eq
    intro i hi
    by_cases hin : 1 ≤ i ∧ i ≤ 10
    · rw [BitVec.getLsbD_and, BitVec.getLsbD_and, h i hin.1 hin.2]
    · simp only [BitVec.getLsbD_and, hmask i hi, hin, decide_false, Bool.and_false]

/-- Settles O7: the decode and the mask both keep exactly the bits 1 to 10. -/
theorem diagFlagsAreTheirBits : Obligations.DiagFlagsAreTheirBits :=
  ⟨fun _ => rfl, fun _ _ => diagDecode_eq_iff.trans and_diagMask_eq_iff.symm⟩

end Sys2Proof

namespace Sys2Proof.Machine

/-! ## The checksum (41_codec R85) -/

/-- The sum of a word's two bytes, in arithmetic. -/
def byteTotal (w : Word) : Nat := w.toNat / 256 + w.toNat % 256

theorem byteSum_eq (ws : List Word) : byteSum ws = (ws.map byteTotal).sum := by
  have htotal : ∀ w : Word, (hiByte w).toNat + (loByte w).toNat = byteTotal w := by
    intro w
    simp only [hiByte, loByte, byteTotal, BitVec.extractLsb'_toNat, Nat.shiftRight_eq_div_pow]
    have := w.isLt
    omega
  simp only [byteSum, htotal]

theorem byteTotal_le (w : Word) : byteTotal w ≤ 510 := by
  have := w.isLt
  unfold byteTotal
  omega

theorem byteSum_le (ws : List Word) : byteSum ws ≤ 510 * ws.length := by
  rw [byteSum_eq, mul_comm]
  simpa using (ws.map byteTotal).sum_le_card_nsmul 510 (by simp [byteTotal_le])

theorem byteSum_eq_sum_range (ws : List Word) :
    byteSum ws = ∑ i ∈ Finset.range ws.length, byteTotal (ws.getD i 0#16) := by
  rw [byteSum_eq]
  induction ws with
  | nil => rfl
  | cons w ws ih => simp [Finset.sum_range_succ', ih, add_comm (byteTotal w)]

theorem toNat_checksum (ws : List Word) : (checksum ws).toNat = byteSum ws.dropLast % 65536 := by
  simp [checksum, Config.checksumMod]

theorem getD_dropLast {ws : List Word} {i : Nat} (h : i < ws.length - 1) : ws.dropLast.getD i 0#16 = ws.getD i 0#16 := by
  rw [List.getD_eq_getElem?_getD, List.getElem?_dropLast, if_pos h, List.getD_eq_getElem?_getD]

/-- Settles O8: the checksum is the byte sum of the words before the last, which is at most 510 for each of them. -/
theorem checksumIsTheByteSum : Obligations.ChecksumIsTheByteSum := by
  intro ws _
  rw [toNat_checksum]
  constructor
  · rw [byteSum_eq_sum_range, List.length_dropLast]
    congr 1
    refine Finset.sum_congr rfl fun i hi => ?_
    rw [getD_dropLast (Finset.mem_range.1 hi)]
    rfl
  · calc byteSum ws.dropLast % 65536 ≤ byteSum ws.dropLast := Nat.mod_le _ _
      _ ≤ 510 * ws.dropLast.length := byteSum_le _
      _ = 510 * (ws.length - 1) := by rw [List.length_dropLast]

/-! ## The flag `corrupted` (41_codec R86) -/

/-- Flipping bit `j` adds `2 ^ j` or takes it away. -/
theorem xor_two_pow_cases (n j : Nat) : n ^^^ 2 ^ j = n + 2 ^ j ∨ n = (n ^^^ 2 ^ j) + 2 ^ j := by
  have hdiv : (n ^^^ 2 ^ j) / 2 ^ j = n / 2 ^ j ^^^ 1 := by rw [Nat.xor_div_two_pow, Nat.div_self (by positivity)]
  have hmod : (n ^^^ 2 ^ j) % 2 ^ j = n % 2 ^ j := by rw [Nat.xor_mod_two_pow, Nat.mod_self, Nat.xor_zero]
  have hn := Nat.div_add_mod n (2 ^ j)
  have hx := Nat.div_add_mod (n ^^^ 2 ^ j) (2 ^ j)
  rw [hdiv, hmod] at hx
  rcases Nat.even_or_odd (n / 2 ^ j) with he | ho
  · left
    rw [Nat.xor_one_of_even he, mul_add] at hx
    omega
  · right
    obtain ⟨k, hk⟩ := ho
    rw [Nat.xor_one_of_odd ⟨k, hk⟩, hk, Nat.add_sub_cancel] at hx
    rw [hk, mul_add] at hn
    omega

/-- A word and the sum of its two bytes are equal mod 255, and no power of two is 0 there: a single-bit flip changes the sum. -/
theorem byteTotal_flip_ne (w : Word) {j : Nat} (hj : j < 16) : byteTotal (w ^^^ (1#16 <<< j)) ≠ byteTotal w := by
  intro h
  have hflip : (w ^^^ (1#16 <<< j)).toNat = w.toNat ^^^ 2 ^ j := by
    rw [← BitVec.twoPow_eq, BitVec.toNat_xor, BitVec.toNat_twoPow,
      Nat.mod_eq_of_lt (Nat.pow_lt_pow_right (by decide) hj)]
  have hpow : ¬255 ∣ 2 ^ j := fun hdvd => by
    have hone := Nat.Coprime.eq_one_of_dvd (Nat.Coprime.pow_right j (by decide)) hdvd
    omega
  unfold byteTotal at h
  rw [hflip] at h
  rcases xor_two_pow_cases w.toNat j with hcase | hcase <;> omega

/-- Replacing one word replaces its share of the sum. -/
theorem byteSum_set {ws : List Word} {i : Nat} (h : i < ws.length) (w : Word) :
    byteSum (ws.set i w) + byteTotal ws[i] = byteSum ws + byteTotal w := by
  conv_rhs => rw [← List.take_append_drop i ws, List.drop_eq_getElem_cons h]
  rw [List.set_eq_take_append_cons_drop, if_pos h]
  simp only [byteSum_eq, List.map_append, List.map_cons, List.sum_append, List.sum_cons]
  omega

/-- A word before the last with another sum of bytes gives another checksum: the two differ by less than 65536. -/
theorem checksum_set_ne {ws : List Word} {i : Nat} (h : i < ws.length - 1) {w : Word}
    (hne : byteTotal w ≠ byteTotal (wordAt ws i)) : checksum (ws.set i w) ≠ checksum ws := by
  intro heq
  have hdrop : (ws.set i w).dropLast = ws.dropLast.set i w := by
    simp only [List.dropLast_eq_take, List.length_set, List.take_set]
  have hlen : i < ws.dropLast.length := by rwa [List.length_dropLast]
  have hword : ws.dropLast[i] = wordAt ws i := by simp [wordAt, List.getElem?_eq_getElem (show i < ws.length by omega)]
  have hsum := byteSum_set hlen w
  have hmod := congrArg BitVec.toNat heq
  rw [toNat_checksum, toNat_checksum, hdrop] at hmod
  rw [hword] at hsum
  have := byteTotal_le w
  have := byteTotal_le (wordAt ws i)
  omega

theorem wordAt_set_ne {ws : List Word} {i k : Nat} (h : i ≠ k) (w : Word) : wordAt (ws.set i w) k = wordAt ws k := by
  simp [wordAt, List.getElem?_set_ne h]

theorem validate_iff {ws : List Word} : validate ws = true ↔ checksum ws = wordAt ws (ws.length - 1) := beq_iff_eq

theorem corrupted_iff {ws : List Word} : corrupted ws = true ↔ checksum ws ≠ wordAt ws (ws.length - 1) := by
  rw [corrupted, Bool.not_eq_true', ← Bool.not_eq_true, validate_iff]

theorem corrupted_flip {ws : List Word} {i j : Nat} (hvalid : validate ws = true) (hi : i < ws.length - 1) (hj : j < 16) :
    corrupted (ws.set i (wordAt ws i ^^^ (1#16 <<< j))) = true := by
  rw [corrupted_iff, List.length_set, wordAt_set_ne (by omega), ← validate_iff.1 hvalid]
  exact checksum_set_ne hi (byteTotal_flip_ne _ hj)

/-- Settles O9: a flip changes the checksum and leaves the last word; in the frame given, bit 0 moves from word 0 to word 1. -/
theorem singleBitFlipIsDetected : Obligations.SingleBitFlipIsDetected := by
  refine ⟨fun _ => corrupted_iff, fun _ _ _ _ => corrupted_flip, ?cancel, fun v sel ws => ⟨rfl, rfl⟩⟩
  case cancel =>
    exact ⟨[1#16, 0#16, 0#16, 0#16, 0#16, 0#16, 0#16, 0#16, 0#16, 1#16], 0, 1, 0, by decide⟩

/-! ## Raw values and the burst decode (41_codec R87 to R91) -/

theorem sint16_eq (w : Word) : sint16 w = if w.toNat < 32768 then (w.toNat : Int) else (w.toNat : Int) - 65536 := by
  rw [sint16, BitVec.toInt_eq_toNat_cond]
  split_ifs <;> omega

/-- Settles O10: `sint16` is the two's complement value, and the offsets are those of the layout. -/
theorem rawComponentValues : Obligations.RawComponentValues :=
  ⟨sint16_eq, fun _ _ _ _ => rfl, fun _ _ _ _ => rfl, fun _ => ⟨rfl, rfl⟩, fun _ => ⟨rfl, rfl⟩⟩

/-- Settles O11: each form of message is one case of `burstDecode`. -/
theorem burstDecodeFields : Obligations.BurstDecodeFields :=
  ⟨fun _ _ => rfl, fun _ _ => rfl, fun _ _ => rfl, fun _ _ => rfl, fun _ _ _ _ => ⟨rfl, rfl, rfl, rfl⟩⟩

/-! ## The variant lookups (41_codec R97, R98) -/

theorem lookupVariant_eq_err {rows : List AdisVersion} {fits : AdisVersion → Bool} :
    lookupVariant rows fits = .err .unknownDeviceVariant ↔ ∀ v ∈ rows, ¬fits v = true := by
  rw [← List.find?_eq_none, lookupVariant]
  cases rows.find? fits <;> simp

/-- Where no two members fit, finding one is finding the one. -/
theorem find?_eq_some_iff_of_pairwise {α : Type} {l : List α} {fits : α → Bool} {x : α}
    (hone : l.Pairwise fun a b => fits a = true → ¬fits b = true) : l.find? fits = some x ↔ x ∈ l ∧ fits x = true := by
  refine ⟨fun h => ⟨List.mem_of_find?_eq_some h, List.find?_some h⟩, ?_⟩
  rintro ⟨hmem, hx⟩
  induction hone with
  | nil => cases hmem
  | @cons a l hlater _ ih =>
    rcases List.mem_cons.1 hmem with rfl | hmem
    · exact List.find?_cons_of_pos hx
    · rw [List.find?_cons_of_neg fun ha => hlater x hmem ha hx, ih hmem]

theorem lookupVariant_eq_ok {rows : List AdisVersion} {fits : AdisVersion → Bool} {v : AdisVersion}
    (hone : rows.Pairwise fun a b => fits a = true → ¬fits b = true) :
    lookupVariant rows fits = .ok v ↔ v ∈ rows ∧ fits v = true := by
  rw [← find?_eq_some_iff_of_pairwise hone, lookupVariant]
  cases rows.find? fits <;> simp

/-- What D10 and log 16 ask of the table: the required row, no pair and no name twice, no row that answers a lookup which the
spec says fails. -/
structure VariantTable (rows : List AdisVersion) : Prop where
  required : Config.requiredVariant ∈ rows
  distinct : rows.Pairwise fun a b => ¬(a.pid = b.pid ∧ a.ver = b.ver) ∧ a.name ≠ b.name
  allowed : ∀ r ∈ rows, Config.variantAllowed r = true

theorem variantsDiffer_iff {a b : AdisVersion} :
    Config.variantsDiffer a b = true ↔ ¬(a.pid = b.pid ∧ a.ver = b.ver) ∧ a.name ≠ b.name := by
  simp [Config.variantsDiffer, imp_iff_not_or]

theorem variantAllowed_iff {r : AdisVersion} :
    Config.variantAllowed r = true ↔
      ¬(r.pid = 9999 ∧ r.ver = 9) ∧ r.name ≠ "BOGUS" ∧ r.name ≠ "adis16505_1bmlz" ∧ r.name ≠ "" ∧
        r.name.toList.getLast? ≠ some ' ' := by
  simp [Config.variantAllowed, and_assoc, imp_iff_not_or]

theorem addVariant_table {rows : List AdisVersion} (h : VariantTable rows) (r : AdisVersion) :
    VariantTable (Config.addVariant rows r) := by
  unfold Config.addVariant
  split_ifs with hadd
  · rw [Bool.and_eq_true, List.all_eq_true] at hadd
    obtain ⟨hallowed, hdiffer⟩ := hadd
    refine ⟨List.mem_append_left _ h.required, List.pairwise_append.2 ⟨h.distinct, List.pairwise_singleton _ _, ?_⟩, ?_⟩
    · intro a ha b hb
      obtain rfl := List.mem_singleton.1 hb
      obtain ⟨hpair, hname⟩ := variantsDiffer_iff.1 (hdiffer a ha)
      exact ⟨fun ⟨hp, hv⟩ => hpair ⟨hp.symm, hv.symm⟩, hname.symm⟩
    · intro a ha
      rcases List.mem_append.1 ha with ha | ha
      · exact h.allowed a ha
      · rwa [List.mem_singleton.1 ha]
  · exact h

theorem variants_table : VariantTable Config.variants := by
  refine List.foldlRecOn _ _ ⟨?_, ?_, ?_⟩ fun rows h r _ => addVariant_table h r
  · exact List.mem_singleton_self _
  · exact List.pairwise_singleton _ _
  · intro r hr
    rw [List.mem_singleton.1 hr, variantAllowed_iff]
    simp [Config.requiredVariant]

theorem fromId_eq_ok {pid ver : Nat} {v : AdisVersion} :
    fromId pid ver = .ok v ↔ v ∈ Config.variants ∧ v.pid = pid ∧ v.ver = ver := by
  rw [fromId, lookupVariant_eq_ok, Bool.and_eq_true, beq_iff_eq, beq_iff_eq]
  refine variants_table.distinct.imp fun ⟨hpair, _⟩ ha hb => hpair ?_
  rw [Bool.and_eq_true, beq_iff_eq, beq_iff_eq] at ha hb
  exact ⟨ha.1.trans hb.1.symm, ha.2.trans hb.2.symm⟩

theorem fromId_eq_err {pid ver : Nat} :
    fromId pid ver = .err .unknownDeviceVariant ↔ ∀ v ∈ Config.variants, ¬(v.pid = pid ∧ v.ver = ver) := by
  simp only [fromId, lookupVariant_eq_err, Bool.and_eq_true, beq_iff_eq]

theorem fromName_eq_ok {name : String} {v : AdisVersion} :
    fromName name = .ok v ↔ v ∈ Config.variants ∧ v.name = name := by
  rw [fromName, lookupVariant_eq_ok, beq_iff_eq]
  refine variants_table.distinct.imp fun ⟨_, hname⟩ ha hb => hname ?_
  exact (beq_iff_eq.1 ha).trans (beq_iff_eq.1 hb).symm

theorem fromName_eq_err {name : String} :
    fromName name = .err .unknownDeviceVariant ↔ ∀ v ∈ Config.variants, v.name ≠ name := by
  simp only [fromName, lookupVariant_eq_err, beq_iff_eq, ne_eq]

/-- Settles O12: the lookups answer by the rows of the table, which `variants_table` describes. -/
theorem variantLookup : Obligations.VariantLookup := by
  have allowed := fun v hv => variantAllowed_iff.1 (variants_table.allowed v hv)
  refine ⟨fun _ _ _ => fromId_eq_ok, fun _ _ => fromId_eq_err, fun _ _ => fromName_eq_ok, fun _ => fromName_eq_err,
    variants_table.distinct, fromId_eq_ok.2 ⟨variants_table.required, rfl, rfl⟩,
    fromName_eq_ok.2 ⟨variants_table.required, rfl⟩, fromId_eq_err.2 fun v hv => ?pair, fromName_eq_err.2 fun v hv => ?bogus,
    fromName_eq_err.2 fun v hv => ?lowerCase, fromName_eq_err.2 fun v hv => ?empty,
    fun name hname => fromName_eq_err.2 fun v hv => ?trailingSpace⟩
  all_goals obtain ⟨hpair, hbogus, hlower, hempty, hspace⟩ := allowed v hv
  case pair => exact hpair
  case bogus => exact hbogus
  case lowerCase => exact hlower
  case empty => exact hempty
  case trailingSpace =>
    rintro rfl
    exact hspace hname

end Sys2Proof.Machine
end

section
/-! The statements of 42_framing: the stuffing, FEED as a function of the bytes received so far, DRAIN byte by byte, and what every
step of every agent keeps. -/

namespace Sys2Proof.Machine

/-! ## The stuffing encoder (42_framing R102) -/

/-- The literal encoder's state with `out` finished and the block `blk` pending: a 0x00 stands where its code byte goes. -/
def literalState (out blk : List Byte) : List Byte × Nat × Nat := (out ++ 0x00#8 :: blk, out.length, blk.length + 1)

/-- What ends the literal encoder: the code byte of the pending block is put in its place. -/
def literalClose (st : List Byte × Nat × Nat) : List Byte := st.1.set st.2.1 (BitVec.ofNat 8 st.2.2)

theorem literalClose_literalState (out blk : List Byte) : literalClose (literalState out blk) = out ++ cobsBlock blk := by
  simp [literalClose, literalState, cobsBlock]

/-- A round of the literal encoder on a sentinel closes the pending block. -/
theorem cobsEncodeStep_sentinel (out blk : List Byte) :
    cobsEncodeStep (literalState out blk) Config.sentinel = literalState (out ++ cobsBlock blk) [] := by
  simp [cobsEncodeStep, literalState, cobsBlock, Config.sentinel]

/-- A round on the data byte that fills the pending block closes it with that byte. -/
theorem cobsEncodeStep_full {out blk : List Byte} {b : Byte} (hb : b ≠ 0x00#8) (hfull : blk.length + 2 = 255) :
    cobsEncodeStep (literalState out blk) b = literalState (out ++ cobsBlock (blk ++ [b])) [] := by
  rw [cobsEncodeStep, if_neg hb, if_pos (show (literalState out blk).2.2 + 1 = 0xFF from hfull)]
  simp [literalState, cobsBlock, Nat.add_assoc]

/-- A round on any other data byte lets it join the pending block. -/
theorem cobsEncodeStep_data {out blk : List Byte} {b : Byte} (hb : b ≠ 0x00#8) (hroom : blk.length + 2 ≠ 255) :
    cobsEncodeStep (literalState out blk) b = literalState out (blk ++ [b]) := by
  rw [cobsEncodeStep, if_neg hb, if_neg (show ¬(literalState out blk).2.2 + 1 = 0xFF from hroom)]
  simp [literalState]

theorem literalClose_foldl (bs out blk : List Byte) :
    literalClose (bs.foldl cobsEncodeStep (literalState out blk)) = out ++ cobsEncodeFrom bs blk := by
  induction bs generalizing out blk with
  | nil => exact literalClose_literalState out blk
  | cons b bs ih =>
    rw [List.foldl_cons, cobsEncodeFrom]
    split_ifs with hb hfull
    · rw [hb, cobsEncodeStep_sentinel, ih, List.append_assoc]
    · rw [cobsEncodeStep_full hb hfull, ih, List.append_assoc]
    · rw [cobsEncodeStep_data hb hfull, ih]

/-- Settles O13: the two encoders agree round by round, from no output and an empty block. -/
theorem cobsEncoderFollowsTheRule : Obligations.CobsEncoderFollowsTheRule :=
  ⟨fun data => (literalClose_foldl data [] []).symm, cobsEncode_ne_sentinel, fun _ => length_cobsEncode⟩

/-! ## The stuffing decoder (42_framing R103) -/

/-- Bytes put in front of a result. -/
def prependResult (out : List Byte) : Result (List Byte) → Result (List Byte)
  | .ok bs => .ok (out ++ bs)
  | .err e => .err e

@[simp] theorem prependResult_nil (r : Result (List Byte)) : prependResult [] r = r := by cases r <;> rfl

@[simp] theorem prependResult_prependResult (out out' : List Byte) (r : Result (List Byte)) :
    prependResult out (prependResult out' r) = prependResult (out ++ out') r := by
  cases r <;> simp [prependResult]

theorem consResult_eq (b : Byte) (r : Result (List Byte)) : consResult b r = prependResult [b] r := by cases r <;> rfl

/-- The literal decoder's inner loop is the data part of the decoder: it fails where the decoder does, or the block's data join
the output and the decoder stands at the next code byte. -/
theorem cobsDecodeBlock_cases (enc : List Byte) (n i : Nat) (out : List Byte) (zero : Bool) :
    (cobsDecodeBlock enc n i out = none ∧ cobsDecodeFrom (enc.drop i) n zero = .err .serializationError) ∨
    ∃ data, cobsDecodeBlock enc n i out = some (out ++ data, i + n) ∧
      cobsDecodeFrom (enc.drop i) n zero = prependResult data (cobsDecodeFrom (enc.drop (i + n)) 0 zero) := by
  induction n generalizing i out with
  | zero => exact .inr ⟨[], by simp [cobsDecodeBlock], by simp⟩
  | succ n ih =>
    rw [cobsDecodeBlock]
    rcases Nat.lt_or_ge i enc.length with hi | hi
    · have hget : enc.getD i 0x00#8 = enc[i] := by simp [hi]
      rw [hget, List.drop_eq_getElem_cons hi, cobsDecodeFrom, Config.sentinel]
      by_cases hb : enc[i] = 0x00#8
      · exact .inl ⟨if_pos (.inr hb), if_pos hb⟩
      · rw [if_neg (not_or.2 ⟨not_le.2 hi, hb⟩), if_neg hb]
        rcases ih (i + 1) (out ++ [enc[i]]) with ⟨hblock, hfrom⟩ | ⟨data, hblock, hfrom⟩ <;> rw [hblock, hfrom]
        · exact .inl ⟨rfl, rfl⟩
        · refine .inr ⟨enc[i] :: data, by simp; omega, ?_⟩
          rw [consResult_eq, prependResult_prependResult, show i + 1 + n = i + (n + 1) by omega, List.singleton_append]
    · rw [if_pos (.inl hi), List.drop_eq_nil_of_le hi]
      exact .inl ⟨rfl, rfl⟩

/-- The 0x00 that the literal decoder has written behind a block when it reaches index `i`: the one the block stands for, if a
further block begins there. -/
def writtenZero (enc : List Byte) (i : Nat) (zero : Bool) : List Byte :=
  if zero = true ∧ i < enc.length then [Config.sentinel] else []

theorem cobsDecodeLoop_eq (enc : List Byte) (fuel i : Nat) (out : List Byte) (zero : Bool) (h : enc.length - i < fuel) :
    cobsDecodeLoop enc fuel i (out ++ writtenZero enc i zero) =
      prependResult out (cobsDecodeFrom (enc.drop i) 0 zero) := by
  induction fuel generalizing i out zero with
  | zero => omega
  | succ fuel ih =>
    rw [cobsDecodeLoop]
    rcases Nat.lt_or_ge i enc.length with hi | hi
    · have hget : enc.getD i 0x00#8 = enc[i] := by simp [hi]
      have hwritten : writtenZero enc i zero = impliedZero zero := by simp [writtenZero, impliedZero, hi]
      rw [hget, if_neg (not_le.2 hi), List.drop_eq_getElem_cons hi, cobsDecodeFrom, hwritten, Config.sentinel]
      by_cases hc : enc[i] = 0x00#8
      · rw [if_pos hc, if_pos hc]; rfl
      · have hzero (r : Result (List Byte)) :
            (if zero = true then consResult 0x00#8 r else r) = prependResult (impliedZero zero) r := by
          cases zero <;> simp [impliedZero, consResult_eq, Config.sentinel]
        rw [if_neg hc, if_neg hc, hzero, prependResult_prependResult]
        rcases cobsDecodeBlock_cases enc (enc[i].toNat - 1) (i + 1) (out ++ impliedZero zero) (enc[i] != 0xFF#8) with
          ⟨hblock, hfrom⟩ | ⟨data, hblock, hfrom⟩ <;> rw [hblock, hfrom]
        · rfl
        · have hnext := ih (i + 1 + (enc[i].toNat - 1)) (out ++ impliedZero zero ++ data) (enc[i] != 0xFF#8) (by omega)
          rw [prependResult_prependResult, ← hnext, writtenZero]
          simp only [bne_iff_ne]
          split_ifs
          · rfl
          · rw [List.append_nil]
    · rw [if_pos hi, List.drop_eq_nil_of_le hi, writtenZero, if_neg fun hz => (not_lt.2 hi) hz.2]
      simp [cobsDecodeFrom, prependResult]

/-- Settles O14: the two decoders agree from every code byte on; a round takes at least one byte, so the bound on the rounds is
not reached. -/
theorem cobsDecoderFollowsTheRule : Obligations.CobsDecoderFollowsTheRule := by
  intro enc
  have h := cobsDecodeLoop_eq enc (enc.length + 1) 0 [] false (by omega)
  simpa [cobsDecode, cobsDecodeLiteral, writtenZero] using h.symm

/-- Settles O15. -/
theorem cobsDecodeInvertsEncode : Obligations.CobsDecodeInvertsEncode := cobsDecode_cobsEncode

/-! ## Frames (42_framing R104) -/

theorem unframe_cobsEncode_serialize {m : Message} (h : m.wf = true) : unframe (cobsEncode (serialize m)) = .ok m :=
  (unframe_cobsEncode _).trans (deserialize_eq_ok.2 (decodeMessage_serialize h))

theorem serialize_ne_nil (m : Message) : serialize m ≠ [] := by cases m <;> simp [serialize]

theorem length_frame_bounds {m : Message} (h : m.wf = true) : 4 ≤ (frame m).length ∧ (frame m).length ≤ 37 := by
  have hle := length_serialize_le h
  have hpos := List.length_pos_iff.2 (serialize_ne_nil m)
  rw [length_frame (m := m) rfl (by omega)]
  omega

/-- Settles O16: the stuffing and the serialization are each inverted, and a failure of either step is the failure of both. -/
theorem unframeInvertsFrame : Obligations.UnframeInvertsFrame := by
  refine ⟨fun _ => rfl, fun _ => unframe_cobsEncode_serialize, fun _ => length_frame_bounds, fun f => ?_, rfl⟩
  cases h : cobsDecode f <;> simp [unframe, h]

/-! ## FEED on the bytes received so far (42_framing R105 to R107) -/

@[simp] theorem Accumulator.length_pending (a : Accumulator) : a.pending.length = a.idx := Memory.readBytes_length ..

theorem Accumulator.pending_eq_nil {a : Accumulator} : a.pending = [] ↔ a.idx = 0 := by
  rw [← List.length_eq_zero_iff, Accumulator.length_pending]

theorem Accumulator.pending_noSentinel {a : Accumulator} :
    (∀ b ∈ a.pending, b ≠ Config.sentinel) ↔ ∀ j, j < a.idx → a.buf.read j ≠ Config.sentinel := by
  simp [Accumulator.pending, Memory.readBytes_eq]

/-- What a complete frame gives: its message, or the failure of UNFRAME. -/
def frameResult (f rest : List Byte) : FeedResult :=
  match unframe f with
  | .ok m => .success m rest
  | .err _ => .deserError rest

/-- FEED as a function of the bytes received so far and the input (42_framing R107): the outcome and the bytes kept. -/
def feedPending (p input : List Byte) : FeedResult × List Byte :=
  match splitSentinel input with
  | some (pre, rest) =>
    if Config.accCap < p.length + (pre.length + 1) then (.overFull rest, []) else (frameResult (p ++ pre) rest, [])
  | none =>
    if Config.accCap < p.length + input.length then (.overFull (input.drop (Config.accCap - p.length)), [])
    else (.consumed, p ++ input)

theorem Accumulator.feedFrame_fits {a : Accumulator} (hbuf : a.buf.wf) {pre : List Byte}
    (h : a.idx + (pre.length + 1) ≤ Config.accCap) (rest : List Byte) :
    a.feedFrame pre rest =
      (frameResult (a.pending ++ pre) rest, { buf := a.buf.writeBytes a.idx (pre ++ [Config.sentinel]), idx := 0 }) := by
  have hread : (a.buf.writeBytes a.idx (pre ++ [Config.sentinel])).readBytes 0 (a.idx + pre.length) = a.pending ++ pre :=
    Memory.readBytes_zero_writeBytes hbuf a.idx pre [Config.sentinel]
  rw [Accumulator.feedFrame, if_neg (not_lt.2 h)]
  simp only [hread, frameResult]
  cases unframe (a.pending ++ pre) <;> rfl

/-- FEED reads and keeps nothing of the accumulator but the bytes received so far (42_framing R105). -/
theorem Accumulator.feed_eq_feedPending {a : Accumulator} (h : a.wf) (input : List Byte) :
    ((a.feed input).1, (a.feed input).2.pending) = feedPending a.pending input := by
  rw [feedPending, Accumulator.length_pending]
  cases hs : splitSentinel input with
  | some split =>
    obtain ⟨pre, rest⟩ := split
    rw [Accumulator.feed_some hs]
    dsimp only
    split_ifs with hover
    · rw [Accumulator.feedFrame, if_pos hover]; rfl
    · rw [Accumulator.feedFrame_fits h.canonical (not_lt.1 hover)]; rfl
  | none =>
    by_cases hne : input = []
    · subst hne
      have hbound := not_lt.2 h.idxBound
      simp [Accumulator.feed_nil, hbound]
    · rw [Accumulator.feed_none hne hs, Accumulator.feedPart]
      dsimp only
      split_ifs with hover
      · rfl
      · have hread := Memory.readBytes_zero_writeBytes h.canonical a.idx input []
        rw [List.append_nil] at hread
        exact congrArg (Prod.mk FeedResult.consumed) hread

theorem Accumulator.feed_of_feedPending {a : Accumulator} (h : a.wf) {input kept : List Byte} {r : FeedResult}
    (hf : feedPending a.pending input = (r, kept)) : (a.feed input).1 = r ∧ (a.feed input).2.pending = kept :=
  Prod.mk.inj ((a.feed_eq_feedPending h input).trans hf)

theorem Accumulator.feed_fst {a : Accumulator} (h : a.wf) (input : List Byte) :
    (a.feed input).1 = (feedPending a.pending input).1 := (Accumulator.feed_of_feedPending h rfl).1

theorem Accumulator.feed_pending {a : Accumulator} (h : a.wf) (input : List Byte) :
    (a.feed input).2.pending = (feedPending a.pending input).2 := (Accumulator.feed_of_feedPending h rfl).2

section
variable {p pre : List Byte} (rest : List Byte)

/-- Too many bytes before the sentinel: the frame is dropped (42_framing R107). -/
theorem feedPending_frame_over (hpre : ∀ b ∈ pre, b ≠ Config.sentinel) (h : Config.accCap < p.length + (pre.length + 1)) :
    feedPending p (pre ++ Config.sentinel :: rest) = (.overFull rest, []) := by
  simp [feedPending, splitSentinel_append hpre, h]

theorem feedPending_frame (hpre : ∀ b ∈ pre, b ≠ Config.sentinel) (h : p.length + (pre.length + 1) ≤ Config.accCap) :
    feedPending p (pre ++ Config.sentinel :: rest) = (frameResult (p ++ pre) rest, []) := by
  simp [feedPending, splitSentinel_append hpre, not_lt.2 h]

end

section
variable {p input : List Byte} (hin : ∀ b ∈ input, b ≠ Config.sentinel)
include hin

theorem feedPending_part_over (h : Config.accCap < p.length + input.length) :
    feedPending p input = (.overFull (input.drop (Config.accCap - p.length)), []) := by
  simp [feedPending, splitSentinel_eq_none hin, h]

theorem feedPending_part (h : p.length + input.length ≤ Config.accCap) : feedPending p input = (.consumed, p ++ input) := by
  simp [feedPending, splitSentinel_eq_none hin, not_lt.2 h]

end

/-- Settles O19: `feedPending` case by case; no bytes are kept exactly when the index is 0. -/
theorem feedOnPendingBytes : Obligations.FeedOnPendingBytes := by
  intro a hwf
  refine ⟨a.feed_nil, fun pre rest hpre => ?frame, fun input _ hin => ?part⟩ <;>
    rw [← Accumulator.pending_eq_nil, ← a.length_pending]
  case frame =>
    refine ⟨fun hover => Accumulator.feed_of_feedPending hwf (feedPending_frame_over rest hpre hover), fun hfits => ?_⟩
    obtain ⟨hresult, hkept⟩ := Accumulator.feed_of_feedPending hwf (feedPending_frame rest hpre hfits)
    refine ⟨hkept, fun m hm => hresult.trans ?_, fun e he => hresult.trans ?_⟩
    · simp [frameResult, hm]
    · simp [frameResult, he]
  case part =>
    exact ⟨fun hover => Accumulator.feed_of_feedPending hwf (feedPending_part_over hin hover),
      fun hfits => Accumulator.feed_of_feedPending hwf (feedPending_part hin hfits)⟩

/-! ## What FEED keeps (42_framing R105) -/

/-- FEED writes some of the bytes it takes, within the capacity, from the fill index on. -/
theorem Accumulator.feed_buf {a : Accumulator} (h : a.idx ≤ Config.accCap) (input : List Byte) :
    ∃ bs : List Byte, bs.length ≤ input.length ∧ a.idx + bs.length ≤ Config.accCap ∧
      (a.feed input).2.buf = a.buf.writeBytes a.idx bs := by
  rcases a.feed_cases input with ⟨-, e⟩ | ⟨pre, rest, rfl, -, ⟨-, e⟩ | ⟨hfits, buf, rfl, ⟨m, -, e⟩ | ⟨k, -, e⟩⟩⟩ |
    ⟨-, -, ⟨-, e⟩ | ⟨hfits, e⟩⟩ <;> rw [e]
  · exact ⟨[], Nat.zero_le _, h, rfl⟩
  · exact ⟨[], Nat.zero_le _, h, rfl⟩
  · exact ⟨_, by simp, by simpa using hfits, rfl⟩
  · exact ⟨_, by simp, by simpa using hfits, rfl⟩
  · exact ⟨[], Nat.zero_le _, h, rfl⟩
  · exact ⟨input, le_rfl, hfits, rfl⟩

/-- The bytes FEED keeps fit the capacity and hold no sentinel, if those received before hold none. -/
theorem feedPending_snd {p : List Byte} (hp : ∀ b ∈ p, b ≠ Config.sentinel) (input : List Byte) :
    (feedPending p input).2.length ≤ Config.accCap ∧ ∀ b ∈ (feedPending p input).2, b ≠ Config.sentinel := by
  unfold feedPending
  split
  · split_ifs <;> simp
  · rename_i hs
    split_ifs with hover
    · simp
    · exact ⟨by simpa using hover, List.forall_mem_append.2 ⟨hp, splitSentinel_none hs⟩⟩

theorem Accumulator.feed_wf {a : Accumulator} (h : a.wf) (input : List Byte) : (a.feed input).2.wf := by
  obtain ⟨bs, -, hcap, hbuf⟩ := a.feed_buf h.idxBound input
  obtain ⟨hlen, hsent⟩ := feedPending_snd (Accumulator.pending_noSentinel.2 h.noSentinel) input
  rw [← a.feed_pending h] at hlen hsent
  refine ⟨by simpa using hlen, ?canonical, ?inside, Accumulator.pending_noSentinel.1 hsent⟩ <;> rw [hbuf]
  case canonical => exact Memory.writeBytes_wf h.canonical a.idx bs
  case inside =>
    intro c hc
    rcases Memory.mem_writeBytes hc with hold | ⟨-, hlt⟩
    · exact h.inside c hold
    · omega

/-- Settles O18: FEED writes as `feed_buf` says, and its outcome is `feedPending` of the bytes received so far. -/
theorem feedKeepsAccumulator : Obligations.FeedKeepsAccumulator := by
  refine ⟨Accumulator.fresh_wf, fun a input hwf => ⟨a.feed_wf hwf input, fun j hj => ?above, fun j hj => ?beside,
    fun b hb hpending => ?pending⟩⟩
  case pending => rw [a.feed_fst hwf, b.feed_fst hb, a.feed_pending hwf, b.feed_pending hb, hpending]; exact ⟨rfl, rfl⟩
  all_goals
    obtain ⟨bs, hlen, hcap, hbuf⟩ := a.feed_buf hwf.idxBound input
    rw [hbuf, Memory.read_writeBytes hwf.canonical, if_neg (by omega)]

/-! ## The bytes that FEED leaves (42_framing R106) -/

/-- Settles O20: a complete frame leaves what stands after its sentinel, and an overflow drops what fits, which is nothing only
when the accumulator is full. -/
theorem feedReturnsASuffix : Obligations.FeedReturnsASuffix := by
  intro a input hidx
  have after (pre rest : List Byte) :
      rest <:+ pre ++ Config.sentinel :: rest ∧ rest ≠ pre ++ Config.sentinel :: rest := by
    refine ⟨(List.suffix_cons ..).trans (List.suffix_append ..), fun e => ?_⟩
    have hlen := congrArg List.length e
    rw [List.length_append, List.length_cons] at hlen
    omega
  rcases a.feed_cases input with ⟨-, e⟩ | ⟨pre, rest, rfl, -, ⟨-, e⟩ | ⟨-, buf, -, ⟨m, -, e⟩ | ⟨k, -, e⟩⟩⟩ |
    ⟨-, -, ⟨hover, e⟩ | ⟨-, e⟩⟩ <;> rw [e] <;> dsimp only
  · exact ⟨(after pre rest).1, fun e => absurd e (after pre rest).2⟩
  · exact after pre rest
  · exact after pre rest
  · refine ⟨List.drop_suffix .., fun e => ?_⟩
    have hdrop := congrArg List.length e
    simp only [Config.accCap, List.length_drop] at hover hdrop
    omega

/-! ## DRAIN feed by feed (42_framing R108) -/

/-- The message of a FEED, if it gives one. -/
def FeedResult.messages : FeedResult → List Message
  | .consumed => []
  | .success m _ => [m]
  | .overFull _ => []
  | .deserError _ => []

/-- The bytes a FEED leaves for the next one. -/
def FeedResult.rest : FeedResult → List Byte
  | .consumed => []
  | .success _ rest => rest
  | .overFull rest => rest
  | .deserError rest => rest

/-- A bound on the FEEDs that a drain still needs: two for each byte, and one for a full accumulator, which is emptied first. -/
def Accumulator.feedsLeft (a : Accumulator) (bytes : List Byte) : Nat :=
  2 * bytes.length + if a.idx = Config.accCap then 1 else 0

theorem Accumulator.feedsLeft_empty (buf : Memory) (bytes : List Byte) :
    Accumulator.feedsLeft { buf := buf, idx := 0 } bytes = 2 * bytes.length := rfl

/-- Each FEED brings the end of the drain nearer (42_framing R108). -/
theorem Accumulator.feedsLeft_feed {a : Accumulator} (h : a.idx ≤ Config.accCap) {bytes : List Byte} (hne : bytes ≠ []) :
    (a.feed bytes).2.feedsLeft (a.feed bytes).1.rest < a.feedsLeft bytes := by
  have hpos := List.length_pos_iff.2 hne
  have hframe {pre rest : List Byte} (hbytes : bytes = pre ++ Config.sentinel :: rest) :
      2 * rest.length < a.feedsLeft bytes := by
    rw [hbytes, Accumulator.feedsLeft, List.length_append, List.length_cons]
    omega
  rcases a.feed_cases bytes with ⟨hnil, -⟩ | ⟨pre, rest, hbytes, -, ⟨-, e⟩ | ⟨-, buf, -, ⟨m, -, e⟩ | ⟨k, -, e⟩⟩⟩ |
    ⟨-, -, ⟨hover, e⟩ | ⟨-, e⟩⟩
  · exact absurd hnil hne
  · rw [e]; exact hframe hbytes
  · rw [e]; exact hframe hbytes
  · rw [e]; exact hframe hbytes
  · rw [e, Accumulator.feedsLeft_empty, FeedResult.rest, List.length_drop, Accumulator.feedsLeft]
    split_ifs <;> omega
  · rw [e, FeedResult.rest, Accumulator.feedsLeft, Accumulator.feedsLeft, List.length_nil]
    split_ifs <;> omega

theorem Accumulator.drainFor_nil (n : Nat) (a : Accumulator) : Accumulator.drainFor n a [] = ([], a, []) := by
  cases n <;> simp [Accumulator.drainFor]

theorem Accumulator.drainFor_succ (n : Nat) (a : Accumulator) {bytes : List Byte} (hne : bytes ≠ []) :
    Accumulator.drainFor (n + 1) a bytes =
      ((a.feed bytes).1.messages ++ (Accumulator.drainFor n (a.feed bytes).2 (a.feed bytes).1.rest).1,
        (Accumulator.drainFor n (a.feed bytes).2 (a.feed bytes).1.rest).2) := by
  rw [Accumulator.drainFor, if_neg hne]
  obtain ⟨r, a'⟩ := a.feed bytes
  cases r <;> simp [FeedResult.messages, FeedResult.rest, Accumulator.drainFor_nil]

/-- Any two bounds that are large enough give the same drain. -/
theorem Accumulator.drainFor_congr {n k : Nat} {a : Accumulator} {bytes : List Byte} (h : a.wf)
    (hn : a.feedsLeft bytes ≤ n) (hk : a.feedsLeft bytes ≤ k) :
    Accumulator.drainFor n a bytes = Accumulator.drainFor k a bytes := by
  induction n generalizing k a bytes with
  | zero =>
    have hnil : bytes = [] := List.length_eq_zero_iff.1 (by unfold Accumulator.feedsLeft at hn; omega)
    rw [hnil, Accumulator.drainFor_nil, Accumulator.drainFor_nil]
  | succ n ih =>
    by_cases hne : bytes = []
    · rw [hne, Accumulator.drainFor_nil, Accumulator.drainFor_nil]
    · have hless := Accumulator.feedsLeft_feed h.idxBound hne
      obtain ⟨k, rfl⟩ : ∃ j, k = j + 1 := ⟨k - 1, by omega⟩
      rw [Accumulator.drainFor_succ n a hne, Accumulator.drainFor_succ k a hne,
        ih (a.feed_wf h bytes) (by omega) (k := k) (by omega)]

theorem Accumulator.feedsLeft_le (a : Accumulator) (bytes : List Byte) : a.feedsLeft bytes ≤ 2 * bytes.length + 1 := by
  unfold Accumulator.feedsLeft
  split_ifs <;> omega

theorem Accumulator.drainFor_eq_drain {n : Nat} {a : Accumulator} {bytes : List Byte} (h : a.wf)
    (hn : a.feedsLeft bytes ≤ n) : Accumulator.drainFor n a bytes = a.drain bytes :=
  Accumulator.drainFor_congr h hn (a.feedsLeft_le bytes)

theorem Accumulator.drain_nil (a : Accumulator) : a.drain [] = ([], a, []) := Accumulator.drainFor_nil 1 a

/-- DRAIN is one FEED, and DRAIN of what it leaves. -/
theorem Accumulator.drain_feed {a : Accumulator} (h : a.wf) {bytes : List Byte} (hne : bytes ≠ []) :
    a.drain bytes =
      ((a.feed bytes).1.messages ++ ((a.feed bytes).2.drain (a.feed bytes).1.rest).1,
        ((a.feed bytes).2.drain (a.feed bytes).1.rest).2) := by
  have hless := Accumulator.feedsLeft_feed h.idxBound hne
  have hle := a.feedsLeft_le bytes
  rw [Accumulator.drain, Accumulator.drainFor_succ _ a hne, Accumulator.drainFor_eq_drain (a.feed_wf h bytes) (by omega)]

/-- Induction along a drain: no bytes, or the bytes that one FEED leaves. -/
theorem Accumulator.drain_induction {P : Accumulator → List Byte → Prop} (nil : ∀ a : Accumulator, a.wf → P a [])
    (feed : ∀ (a : Accumulator) (bytes : List Byte), a.wf → bytes ≠ [] →
      P (a.feed bytes).2 (a.feed bytes).1.rest → P a bytes)
    {a : Accumulator} (h : a.wf) (bytes : List Byte) : P a bytes := by
  generalize hn : a.feedsLeft bytes = n
  induction n using Nat.strong_induction_on generalizing a bytes with
  | _ n ih =>
    by_cases hne : bytes = []
    · exact hne ▸ nil a h
    · have hless := Accumulator.feedsLeft_feed h.idxBound hne
      exact feed a bytes h hne (ih _ (hn ▸ hless) (a.feed_wf h bytes) _ rfl)

/-- DRAIN feeds every byte and keeps the accumulator's invariant (42_framing R105, R108). -/
theorem Accumulator.drain_end {a : Accumulator} (h : a.wf) (bytes : List Byte) :
    (a.drain bytes).2.2 = [] ∧ (a.drain bytes).2.1.wf := by
  refine Accumulator.drain_induction (P := fun a bytes => (a.drain bytes).2.2 = [] ∧ (a.drain bytes).2.1.wf)
    (fun a h => ?_) (fun a bytes h hne ih => ?_) h bytes
  · rw [a.drain_nil]
    exact ⟨rfl, h⟩
  · rwa [Accumulator.drain_feed h hne]

/-- Settles O21: the model's bound and any larger one are both at least the FEEDs that the drain needs. -/
theorem drainTerminates : Obligations.DrainTerminates := fun a bytes _ hwf hn =>
  ⟨Accumulator.drainFor_eq_drain hwf ((a.feedsLeft_le bytes).trans hn), Accumulator.drain_end hwf bytes⟩

/-! ## DRAIN byte by byte (42_framing R107, R109) -/

/-- What the bytes between two sentinels give: their message, if they fit the capacity and are one (42_framing R107). -/
def delivered (f : List Byte) : List Message :=
  if Config.accCap < f.length + 1 then [] else (frameResult f []).messages

/-- The messages and the bytes kept when a stream is received byte by byte with `p` received before. It is DRAIN as long as the
bytes kept at the end fit the capacity. -/
def received (p : List Byte) : List Byte → List Message × List Byte
  | [] => ([], p)
  | b :: bs =>
    if b = Config.sentinel then (delivered p ++ (received [] bs).1, (received [] bs).2) else received (p ++ [b]) bs

/-- A stream may be cut anywhere. -/
theorem received_append (p as bs : List Byte) :
    received p (as ++ bs) =
      ((received p as).1 ++ (received (received p as).2 bs).1, (received (received p as).2 bs).2) := by
  induction as generalizing p with
  | nil => rfl
  | cons b as ih =>
    rw [List.cons_append, received, received]
    split_ifs <;> simp [ih]

theorem received_part {bs : List Byte} (hbs : ∀ b ∈ bs, b ≠ Config.sentinel) (p : List Byte) :
    received p bs = ([], p ++ bs) := by
  induction bs generalizing p with
  | nil => simp [received]
  | cons b bs ih =>
    obtain ⟨hb, hbs⟩ := List.forall_mem_cons.1 hbs
    rw [received, if_neg hb, ih hbs, List.append_assoc, List.singleton_append]

theorem received_frame {pre : List Byte} (hpre : ∀ b ∈ pre, b ≠ Config.sentinel) (p rest : List Byte) :
    received p (pre ++ Config.sentinel :: rest) =
      (delivered (p ++ pre) ++ (received [] rest).1, (received [] rest).2) := by
  simp [received_append, received_part hpre, received]

theorem length_received_le (p bs : List Byte) : (received p bs).2.length ≤ p.length + bs.length := by
  induction bs generalizing p with
  | nil => simp [received]
  | cons b bs ih =>
    rw [received, List.length_cons]
    split_ifs
    · have h := ih []
      rw [List.length_nil] at h
      dsimp only
      omega
    · have h := ih (p ++ [b])
      rw [List.length_append, List.length_singleton] at h
      omega

/-- One FEED of a stream, where the bytes kept at its end fit the capacity. -/
theorem received_feedPending {p bs : List Byte} (hfits : (received p bs).2.length ≤ Config.accCap) :
    received p bs =
      ((feedPending p bs).1.messages ++ (received (feedPending p bs).2 (feedPending p bs).1.rest).1,
        (received (feedPending p bs).2 (feedPending p bs).1.rest).2) := by
  cases hs : splitSentinel bs with
  | some split =>
    obtain ⟨pre, rest⟩ := split
    obtain ⟨rfl, hpre⟩ := splitSentinel_some hs
    rw [received_frame hpre, delivered, List.length_append, Nat.add_assoc]
    split_ifs with hover
    · rw [feedPending_frame_over rest hpre hover]; rfl
    · rw [feedPending_frame rest hpre (not_lt.1 hover), frameResult, frameResult]
      cases unframe (p ++ pre) <;> rfl
  | none =>
    have hbs := splitSentinel_none hs
    rw [received_part hbs] at hfits ⊢
    rw [feedPending_part hbs (by simpa using hfits)]
    rfl

/-- DRAIN is the reception byte by byte, unless the last bytes, with no sentinel after them, overflow. -/
theorem Accumulator.drain_eq_received {a : Accumulator} (h : a.wf) (bytes : List Byte)
    (hfits : (received a.pending bytes).2.length ≤ Config.accCap) :
    (a.drain bytes).1 = (received a.pending bytes).1 ∧ (a.drain bytes).2.1.pending = (received a.pending bytes).2 := by
  refine Accumulator.drain_induction
    (P := fun a bytes => (received a.pending bytes).2.length ≤ Config.accCap →
      (a.drain bytes).1 = (received a.pending bytes).1 ∧ (a.drain bytes).2.1.pending = (received a.pending bytes).2)
    (fun a _ _ => ?_) (fun a bytes h hne ih hfits => ?_) h bytes hfits
  · rw [a.drain_nil]
    exact ⟨rfl, rfl⟩
  · have hstep := received_feedPending hfits
    rw [← a.feed_fst h, ← a.feed_pending h] at hstep
    rw [hstep] at hfits ⊢
    rw [Accumulator.drain_feed h hne]
    obtain ⟨hmsgs, hkept⟩ := ih hfits
    exact ⟨congrArg _ hmsgs, hkept⟩

theorem Accumulator.fresh_drain {bytes : List Byte} (hfits : (received [] bytes).2.length ≤ Config.accCap) :
    (Accumulator.fresh.drain bytes).1 = (received [] bytes).1 ∧
      (Accumulator.fresh.drain bytes).2.1.pending = (received [] bytes).2 :=
  Accumulator.drain_eq_received Accumulator.fresh_wf bytes hfits

theorem delivered_nil : delivered [] = [] := by decide

/-- A well-formed message's stuffed bytes deliver it. -/
theorem delivered_cobsEncode {m : Message} (h : m.wf = true) : delivered (cobsEncode (serialize m)) = [m] := by
  have hlen := length_serialize_le h
  have henc := length_cobsEncode (data := serialize m) (by omega)
  rw [delivered, if_neg (by simp only [Config.accCap]; omega), frameResult, unframe_cobsEncode_serialize h]
  rfl

/-- A frame in a stream gives its message. -/
theorem received_frame_append {m : Message} (h : m.wf = true) (rest : List Byte) :
    received [] (frame m ++ rest) = (m :: (received [] rest).1, (received [] rest).2) := by
  have htail := received_frame (cobsEncode_ne_sentinel (serialize m)) [] rest
  rw [List.nil_append, delivered_cobsEncode h] at htail
  simp [frame, received, delivered_nil, htail]

theorem received_frames {ms : List Message} (h : ∀ m ∈ ms, m.wf = true) : received [] (ms.flatMap frame) = (ms, []) := by
  induction ms with
  | nil => rfl
  | cons m ms ih =>
    obtain ⟨hm, hms⟩ := List.forall_mem_cons.1 h
    rw [List.flatMap_cons, received_frame_append hm, ih hms]

/-- However a stream of frames is cut, the bytes kept at the cut are fewer than a frame's. -/
theorem length_received_cut {ms : List Message} (h : ∀ m ∈ ms, m.wf = true) {as bs : List Byte}
    (hcut : as ++ bs = ms.flatMap frame) : (received [] as).2.length ≤ 37 := by
  induction ms generalizing as with
  | nil =>
    obtain ⟨rfl, -⟩ := List.append_eq_nil_iff.1 hcut
    exact Nat.zero_le _
  | cons m ms ih =>
    obtain ⟨hm, hms⟩ := List.forall_mem_cons.1 h
    rw [List.flatMap_cons, List.append_eq_append_iff] at hcut
    rcases hcut with ⟨cs, hframe, -⟩ | ⟨cs, rfl, hrest⟩
    · have hle := (length_frame_bounds hm).2
      have hkept := length_received_le [] as
      rw [hframe, List.length_append] at hle
      rw [List.length_nil] at hkept
      omega
    · rw [received_frame_append hm]
      exact ih hms hrest.symm

/-- Settles O22: both drains are receptions, and a reception may be cut anywhere. -/
theorem splitInvariance : Obligations.SplitInvariance := by
  intro ms as bs hms hcut
  have hle := length_received_cut hms hcut
  obtain ⟨hmsgs, hkept⟩ := Accumulator.fresh_drain (bytes := as) (hle.trans (by decide))
  have hwf := (Accumulator.drain_end Accumulator.fresh_wf as).2
  have hall := received_frames hms
  rw [← hcut, received_append, ← hkept, ← hmsgs, Prod.mk.injEq] at hall
  obtain ⟨hall, hend⟩ := hall
  obtain ⟨hmsgs', hkept'⟩ := Accumulator.drain_eq_received hwf bs (by rw [hend]; exact Nat.zero_le _)
  rw [hmsgs', ← Accumulator.pending_eq_nil, hkept']
  exact ⟨hall, hend⟩

/-! ## Garbage between frames (42_framing R107, 90_conflicts C3) -/

/-- A stream that a sentinel ends gives what each of its pieces delivers, the first of them after the bytes received before. -/
theorem received_pieces (g : List Byte) :
    ∃ q qs, pieces g = q :: qs ∧
      ∀ p, received p (g ++ [Config.sentinel]) = (((p ++ q) :: qs).flatMap delivered, []) := by
  induction g with
  | nil => exact ⟨[], [], rfl, fun p => by simp [received]⟩
  | cons b g ih =>
    obtain ⟨q, qs, hg, hrec⟩ := ih
    by_cases hb : b = Config.sentinel
    · exact ⟨[], q :: qs, by rw [pieces, if_pos hb, hg], fun p => by simp [received, hb, hrec]⟩
    · refine ⟨b :: q, qs, by rw [pieces, if_neg hb, hg], fun p => ?_⟩
      rw [List.cons_append, received, if_neg hb, hrec, List.append_assoc, List.singleton_append]

theorem delivered_eq_nil {f : List Byte} (h : ∀ m, unframe f ≠ .ok m) : delivered f = [] := by
  rw [delivered, frameResult]
  cases hu : unframe f with
  | ok m => exact absurd hu (h m)
  | err e => split_ifs <;> rfl

/-- Garbage that a sentinel ends gives no message and leaves no byte behind. -/
theorem received_garbage {g : List Byte} (h : ∀ p ∈ pieces g, ∀ m, unframe p ≠ .ok m) :
    received [] (g ++ [Config.sentinel]) = ([], []) := by
  obtain ⟨q, qs, hg, hrec⟩ := received_pieces g
  rw [hrec, List.nil_append, ← hg, List.flatMap_eq_nil_iff.2 fun p hp => delivered_eq_nil (h p hp)]

/-- Settles O23: the second frame's leading sentinel ends the garbage, and the rest of that frame gives its message. -/
theorem garbageBetweenFramesHeals : Obligations.GarbageBetweenFramesHeals := by
  intro m1 m2 g h1 h2 hg
  have hsplit : frame m1 ++ g ++ frame m2 =
      frame m1 ++ ((g ++ [Config.sentinel]) ++ (cobsEncode (serialize m2) ++ [Config.sentinel])) := by simp [frame]
  have hsecond : received [] (cobsEncode (serialize m2) ++ [Config.sentinel]) = ([m2], []) := by
    rw [received_frame (cobsEncode_ne_sentinel _), List.nil_append, delivered_cobsEncode h2]
    rfl
  have hall : received [] (frame m1 ++ g ++ frame m2) = ([m1, m2], []) := by
    rw [hsplit, received_frame_append h1, received_append, received_garbage hg, hsecond]
    rfl
  rw [(Accumulator.fresh_drain (by rw [hall]; exact Nat.zero_le _)).1, hall]

/-! ## The accumulator and the bus history along a step (42_framing R105, 43_firmware_loop R111) -/

section
variable (s : State)

@[simp] theorem dispatched_bus (m : Message) :
    (dispatched m s).acc = s.acc ∧ (dispatched m s).busLog = s.busLog ∧ (dispatched m s).lastTxn = s.lastTxn := by
  rcases dispatched_cases m s with ⟨v, -, e⟩ | ⟨-, -, e⟩ | ⟨-, -, e⟩ | e | ⟨p, e⟩ <;> simp [e, ackAndFeed]

@[simp] theorem settleStep_bus (f : ConfigField) (cand : FwConfig) (t0 : Nat) (rem : List Byte) :
    (settleStep f cand t0 rem s).acc = s.acc ∧ (settleStep f cand t0 rem s).busLog = s.busLog ∧
      (settleStep f cand t0 rem s).lastTxn = s.lastTxn := by
  obtain ⟨p, e⟩ := settleStep_eq_setPhase f cand t0 rem s; simp [e]

@[simp] theorem resetStep_bus (t0 : Nat) (rem : List Byte) :
    (resetStep t0 rem s).acc = s.acc ∧ (resetStep t0 rem s).busLog = s.busLog ∧
      (resetStep t0 rem s).lastTxn = s.lastTxn := by
  rcases resetStep_cases t0 rem s with ⟨p, e⟩ | ⟨-, e⟩ <;> simp [e]

@[simp] theorem flushStep_bus :
    (flushStep s).acc = s.acc ∧ (flushStep s).busLog = s.busLog ∧ (flushStep s).lastTxn = s.lastTxn := by
  obtain ⟨tx, wr, n, e⟩ := flush_fold s.resp s; simp [flushStep, e]

@[simp] theorem burstCheckStep_bus :
    (burstCheckStep s).acc = s.acc ∧ (burstCheckStep s).busLog = s.busLog ∧ (burstCheckStep s).lastTxn = s.lastTxn := by
  obtain ⟨p, e⟩ := burstCheckStep_eq_setPhase s; simp [e]

@[simp] theorem xfer_acc (w : Word) : (xfer w s).acc = s.acc := by
  rcases xfer_cases w s with ⟨-, e⟩ | ⟨-, -, e⟩ | ⟨-, -, e⟩ <;> simp [e, transact]

end

/-- Only a FEED writes the accumulator. -/
theorem LoopStep.acc_cases {s t : State} (h : LoopStep s t) : t.acc = s.acc ∨ ∃ rem, t.acc = (s.acc.feed rem).2 := by
  cases h with
  | feedConsumed rem a _ _ hf => exact .inr ⟨rem, by simp [hf]⟩
  | feedOverFull rem rest a _ _ hf => exact .inr ⟨rem, by simp [hf]⟩
  | feedDeserError rem rest a _ _ hf => exact .inr ⟨rem, by simp [hf]⟩
  | feedMessage rem m rest a _ _ hf _ => exact .inr ⟨rem, by simp [hf]⟩
  | _ => left; simp

theorem LoopStep.acc_wf {s t : State} (h : LoopStep s t) (hacc : s.acc.wf) : t.acc.wf := by
  rcases h.acc_cases with e | ⟨rem, e⟩ <;> rw [e]
  · exact hacc
  · exact Accumulator.feed_wf hacc rem

/-- The bus history is as before, or one transaction joins it, once the minimum interval is over (43_firmware_loop R111). -/
theorem LoopStep.busLog_cases {s t : State} (h : LoopStep s t) :
    (t.busLog = s.busLog ∧ t.lastTxn = s.lastTxn) ∨
    ∃ w r, IntervalOver s ∧ t.busLog = s.busLog ++ [{ time := s.now, sent := w, received := r }] ∧
      t.lastTxn = some s.now := by
  cases h with
  | send w hw =>
    rcases xfer_cases w s with ⟨-, e⟩ | ⟨-, -, e⟩ | ⟨-, hi, e⟩ <;> rw [e]
    · exact .inl ⟨rfl, rfl⟩
    · exact .inl ⟨rfl, rfl⟩
    · exact .inr ⟨w, _, intervalOver_eq_true.1 hi, transact_busLog w s.popClock, transact_lastTxn w s.popClock⟩
  | _ => left; simp

/-- A transaction once the minimum interval is over keeps the history spaced (70_reset_and_hazards R149). -/
theorem Spaced.append {s : State} (h : Spaced s.busLog) (hlast : s.lastTxn = s.busLog.getLast?.map (·.time))
    (hover : IntervalOver s) (w r : Word) : Spaced (s.busLog ++ [{ time := s.now, sent := w, received := r }]) := by
  refine List.pairwise_append.2 ⟨h, List.pairwise_singleton .., fun e he e' he' => ?_⟩
  rw [List.mem_singleton.1 he']
  rcases List.eq_nil_or_concat' s.busLog with hnil | ⟨pre, last, hlog⟩
  · rw [hnil] at he; cases he
  · rw [hlog] at h hlast he
    rw [List.getLast?_concat, Option.map_some] at hlast
    have hlastOver : last.time + Config.tMin ≤ s.now := by
      rcases hover with hnone | ⟨t0, ht0, hover⟩
      · rw [hnone] at hlast; cases hlast
      · rw [ht0] at hlast; cases hlast; exact hover
    rcases List.mem_append.1 he with hpre | hlast
    · have hbefore := (List.pairwise_append.1 h).2.2 e hpre last (List.mem_singleton_self last)
      exact hbefore.trans ((Nat.le_add_right ..).trans hlastOver)
    · rwa [List.mem_singleton.1 hlast]

/-! ## The queued messages (43_firmware_loop R127) -/

theorem dispatched_resp (m : Message) (s : State) :
    (dispatched m s).resp = s.resp ∨ (isResponse m = true ∧ (dispatched m s).resp = s.resp ++ [m]) := by
  cases m with
  | cfg f =>
    rcases dispatched_cases (.cfg f) s with ⟨v, -, e⟩ | ⟨-, -, e⟩ | ⟨-, -, e⟩ | e | ⟨p, e⟩ <;> rw [e]
    · exact .inr ⟨rfl, rfl⟩
    · exact .inl rfl
    · exact .inl rfl
    · exact .inr ⟨rfl, rfl⟩
    · exact .inl rfl
  | rst =>
    rw [dispatched, startReset]
    rcases withClock_cases _ s with ⟨-, e⟩ | ⟨-, e⟩ <;> rw [e] <;> exact .inl rfl
  | _ => exact .inl rfl

/-- The queue is as before, emptied, or longer by one response. -/
theorem LoopStep.resp_cases {s t : State} (h : LoopStep s t) :
    t.resp = s.resp ∨ t.resp = [] ∨ ∃ m, isResponse m = true ∧ t.resp = s.resp ++ [m] := by
  cases h with
  | feedMessage rem m rest a _ _ _ _ =>
    rcases dispatched_resp m ((s.setAcc a).setPhase (.feed rest)) with e | ⟨hm, e⟩
    · exact .inl e
    · exact .inr (.inr ⟨m, hm, e⟩)
  | send w hw =>
    rcases xfer_cases_of_sentWord hw with
      ⟨p, e⟩ | ⟨r, ⟨p, e⟩ | ⟨f, cand, rem, -, e⟩ | ⟨v, rem, -, e⟩ | ⟨p, sel, ws, -, -, e⟩⟩ <;> rw [e]
    · exact .inl rfl
    · exact .inl rfl
    · exact .inr (.inr ⟨.cfg f, rfl, rfl⟩)
    · exact .inr (.inr ⟨.rqr r, rfl, rfl⟩)
    · exact .inl (by simp [emitBurst])
  | settle f cand t0 rem _ =>
    obtain ⟨p, e⟩ := settleStep_eq_setPhase f cand t0 rem s
    exact .inl (by rw [e]; rfl)
  | reset t0 rem _ =>
    rcases resetStep_cases t0 rem s with ⟨p, e⟩ | ⟨-, e⟩ <;> rw [e]
    · exact .inl rfl
    · exact .inr (.inr ⟨.rst, rfl, rfl⟩)
  | flush _ => exact .inr (.inl rfl)
  | burstCheck _ =>
    obtain ⟨p, e⟩ := burstCheckStep_eq_setPhase s
    exact .inl (by rw [e]; rfl)
  | _ => exact .inl rfl

theorem LoopStep.responses {s t : State} (h : LoopStep s t) (hs : ∀ m ∈ s.resp, isResponse m = true) :
    ∀ m ∈ t.resp, isResponse m = true := by
  rcases h.resp_cases with e | e | ⟨m, hm, e⟩ <;> rw [e]
  · exact hs
  · simp
  · exact List.forall_mem_append.2 ⟨hs, by simpa using hm⟩

/-! ## The phase (43_firmware_loop R111 to R124) -/

/-- A step that may be held ends in the fault, in a hold, or, once the hold is over, in its effect. -/
theorem withClock_held_cases (ready : State → Bool) (k : State → State) (s : State) :
    withClock (fun s => if ready s then k s else s) s = s.popClock.raiseFault .clockError ∨
    withClock (fun s => if ready s then k s else s) s = s.popClock ∨
    (ready s.popClock = true ∧ withClock (fun s => if ready s then k s else s) s = k s.popClock) := by
  rcases withClock_cases (fun s => if ready s then k s else s) s with ⟨-, e⟩ | ⟨-, e⟩ <;> rw [e]
  · by_cases h : ready s.popClock = true
    · exact .inr (.inr ⟨h, if_pos h⟩)
    · exact .inr (.inl (if_neg h))
  · exact .inl rfl

/-- The settle delay: the fault, a hold, or the phase of the read request once it is over (43_firmware_loop R116). -/
theorem settleStep_cases (f : ConfigField) (cand : FwConfig) (t0 : Nat) (rem : List Byte) (s : State) :
    settleStep f cand t0 rem s = s.popClock.raiseFault .clockError ∨ settleStep f cand t0 rem s = s.popClock ∨
    (t0 + Config.tSettle ≤ s.now ∧ settleStep f cand t0 rem s = s.popClock.setPhase (.cfgR1 f cand rem)) :=
  (withClock_held_cases (fun s => elapsed Config.tSettle t0 s.now) _ s).imp id
    (Or.imp id (And.imp elapsed_iff.1 id))

/-- The reset pulse: the fault, a hold, or its end once its width is over (43_firmware_loop R118). -/
theorem resetStep_outcomes (t0 : Nat) (rem : List Byte) (s : State) :
    resetStep t0 rem s = s.popClock.raiseFault .clockError ∨ resetStep t0 rem s = s.popClock ∨
    resetStep t0 rem s =
      (((s.popClock.setReset .high).setCfg FwConfig.default).pushResp .rst).setPhase (.feed rem) :=
  (withClock_held_cases (fun s => elapsed Config.tRst t0 s.now) _ s).imp id (Or.imp id And.right)

/-- What a phase says of the rest of the state outlives the environment's moves: the clock goes forward and the latch stays
set. -/
theorem PhaseOk.mono {s t : State} (h : PhaseOk s) (hphase : t.phase = s.phase) (hcfg : t.cfg = s.cfg)
    (hlog : t.busLog = s.busLog) (hline : t.rstLine = s.rstLine) (hresp : t.resp = s.resp) (hnow : s.now ≤ t.now)
    (hdr : s.drPending = true → t.drPending = true) : PhaseOk t := by
  have handshaking {f : ConfigField} {cand : FwConfig} {rem : List Byte} (hs : Handshaking s f cand rem) :
      Handshaking t f cand rem := by rwa [Handshaking, hcfg]
  have capturing {p : Precision} {sel : BurstSel} (hs : Capturing s p sel) : Capturing t p sel := by
    obtain ⟨henabled, hlatched, hframe⟩ := hs
    rw [Capturing, hcfg]
    exact ⟨henabled, hdr hlatched, hframe⟩
  unfold PhaseOk at h ⊢
  rw [hphase, hlog, hline, hresp]
  generalize s.phase = p at h ⊢
  cases p
  case cfgW1 => exact handshaking h
  case cfgW2 => exact h.imp handshaking id
  case cfgSettle => exact h.imp handshaking id
  case cfgR1 =>
    obtain ⟨hs, t0, hwrote, hover⟩ := h
    exact ⟨handshaking hs, t0, hwrote, hover.trans hnow⟩
  case cfgR2 => exact h.imp handshaking id
  case rstLow =>
    obtain ⟨hrem, hlow, hpast⟩ := h
    exact ⟨hrem, hlow, hpast.trans hnow⟩
  case burstCmd => exact h.imp id capturing
  case burstWord => exact h.imp id (And.imp capturing id)
  all_goals exact h

/-- A transaction that only advances the phase gives what the next phase asks of the history, and keeps the rest. -/
theorem BusAdvance.phaseOk {s : State} {w r : Word} {p : Phase} (h : BusAdvance s.now r s.phase p)
    (hw : sentWord s.phase = some w) (hok : PhaseOk s) : PhaseOk ((s.transacted w r).setPhase p) := by
  unfold PhaseOk at hok
  generalize s.phase = q at h hw hok
  cases h with
  | cfgW1 f cand rem =>
    cases hw
    exact ⟨hok, s.busLog, _, rfl, rfl⟩
  | cfgW2 f cand rem =>
    cases hw
    obtain ⟨hs, -⟩ := hok
    exact ⟨hs, s.busLog, _, rfl, rfl, rfl⟩
  | cfgR1 f cand rem =>
    cases hw
    obtain ⟨hs, t0, ⟨pre, e, hlog, hsent, rfl⟩, hover⟩ := hok
    exact ⟨hs, pre, e, ⟨s.now, request Config.mscCtrlAddr, r⟩, by simp [hlog], hsent, rfl, hover⟩
  | cfgR2 f cand rem _ =>
    obtain ⟨⟨-, -, hrem⟩, -⟩ := hok
    exact hrem
  | rqr1 v rem =>
    cases hw
    exact ⟨hok, s.busLog, _, rfl, rfl⟩
  | burstCmd p sel =>
    cases hw
    obtain ⟨hresp, hcap⟩ := hok
    exact ⟨hresp, hcap, by cases p <;> decide, s.busLog, _, [], rfl, rfl, by simp, rfl⟩
  | burstWord p sel ws hmore =>
    cases hw
    obtain ⟨hresp, hcap, hlt, pre, cmd, evs, hlog, hcmd, hfill, hws⟩ := hok
    refine ⟨hresp, hcap, by rw [List.length_append, List.length_singleton]; omega, pre, cmd,
      evs ++ [{ time := s.now, sent := Config.fill, received := r }], by simp [hlog], hcmd, ?_, by simp [hws]⟩
    exact List.forall_mem_append.2 ⟨hfill, by simp⟩

theorem phaseOk_raiseFault (s : State) : PhaseOk (s.raiseFault .clockError) := by
  rw [PhaseOk, State.raiseFault_phase]

theorem xfer_phaseOk {s : State} {w : Word} (hw : sentWord s.phase = some w) (hok : PhaseOk s) : PhaseOk (xfer w s) := by
  rcases xfer_cases w s with ⟨-, e⟩ | ⟨-, -, e⟩ | ⟨-, -, e⟩ <;> rw [e]
  · exact phaseOk_raiseFault _
  · exact hok
  · rw [transact]
    rcases afterXfer_cases (s := s.transacted w (s.popClock.answer w)) hw (s.popClock.answer w) with
      ⟨p, hadv, e⟩ | ⟨f, cand, rem, hp, -, e⟩ | ⟨v, rem, hp, e⟩ | ⟨p, sel, ws, hp, -, e⟩ <;> rw [e]
    · exact BusAdvance.phaseOk (s := s) hadv hw hok
    all_goals
      rw [PhaseOk, show s.phase = _ from hp] at hok
    · obtain ⟨⟨-, -, hrem⟩, -⟩ := hok
      exact hrem
    · exact hok.1
    · simpa [PhaseOk, emitBurst] using hok.1

theorem dispatched_phaseOk (m : Message) {s : State} (hrem : s.phase.rem.length ≤ Config.rxChunk) :
    PhaseOk (dispatched m s) := by
  have msc (f : ConfigField) : PhaseOk (dispatchMsc f s) := by
    unfold dispatchMsc
    split_ifs with hsame
    · exact hrem
    · exact ⟨rfl, hsame, hrem⟩
  cases m with
  | cfg f =>
    cases f with
    | burstEn v => exact hrem
    | _ => exact msc _
  | rst =>
    rw [dispatched, startReset]
    rcases withClock_cases _ s with ⟨-, e⟩ | ⟨-, e⟩ <;> rw [e]
    · exact ⟨hrem, rfl, le_rfl⟩
    · exact phaseOk_raiseFault _
  | _ => exact hrem

/-- What a FEED leaves of a chunk fits a chunk. -/
theorem Accumulator.length_feed_rest_le {a : Accumulator} (h : a.wf) (bytes : List Byte) :
    (a.feed bytes).1.rest.length ≤ bytes.length := by
  have hsuffix := feedReturnsASuffix a bytes h.idxBound
  cases hr : (a.feed bytes).1 <;> rw [hr] at hsuffix
  case consumed => exact Nat.zero_le _
  all_goals exact hsuffix.1.length_le

theorem LoopStep.phaseOk {s t : State} (h : LoopStep s t) (hacc : s.acc.wf) (hok : PhaseOk s) : PhaseOk t := by
  have feedRest {rem : List Byte} {r : FeedResult} {a : Accumulator} (hp : s.phase = .feed rem)
      (hf : s.acc.feed rem = (r, a)) : r.rest.length ≤ Config.rxChunk := by
    rw [PhaseOk, hp] at hok
    have hle := Accumulator.length_feed_rest_le hacc rem
    rw [hf] at hle
    exact hle.trans hok
  cases h with
  | topFlush => trivial
  | topRead => exact List.length_take_le ..
  | topFail => exact Nat.zero_le _
  | feedNil => trivial
  | feedConsumed => trivial
  | feedOverFull rem rest a hp _ hf => exact feedRest hp hf
  | feedDeserError rem rest a hp _ hf => exact feedRest hp hf
  | feedMessage rem m rest a hp _ hf _ => exact dispatched_phaseOk m (feedRest hp hf)
  | feedFault => exact phaseOk_raiseFault _
  | send w hw => exact xfer_phaseOk hw hok
  | settle f cand t0 rem hp =>
    rcases settleStep_cases f cand t0 rem s with e | e | ⟨hover, e⟩ <;> rw [e]
    · exact phaseOk_raiseFault _
    · exact hok
    · rw [PhaseOk, hp] at hok
      exact ⟨hok.1, t0, hok.2, hover⟩
  | reset t0 rem hp =>
    rcases resetStep_outcomes t0 rem s with e | e | e <;> rw [e]
    · exact phaseOk_raiseFault _
    · exact hok
    · rw [PhaseOk, hp] at hok
      exact hok.1
  | flush => exact rfl
  | burstCheck hp =>
    rw [PhaseOk, hp] at hok
    unfold burstCheckStep
    split_ifs with hcap
    · rw [Bool.and_eq_true] at hcap
      exact ⟨hok, hcap.1, hcap.2, rfl, rfl⟩
    · exact hok
  | fault => exact hok

/-! ## The reset line (43_firmware_loop R118) -/

theorem lineMayBeLow_of_sentWord {p : Phase} {w : Word} (h : sentWord p = some w) : lineMayBeLow p = false := by
  cases p with
  | rstLow => cases h
  | fault => cases h
  | _ => rfl

/-- While the line stays low, the pulse goes on, or the loop is in the fault that cut it short. -/
theorem LoopStep.lineHigh {s t : State} (h : LoopStep s t) (hs : s.rstLine = .low → lineMayBeLow s.phase = true)
    (ht : t.rstLine = .low) : lineMayBeLow t.phase = true := by
  rcases h.rstLine_cases with hline | ⟨-, -, rem, rest, a, -, -, hp⟩ | ⟨hhigh, -⟩
  · have hmay := hs (hline.symm.trans ht)
    cases h with
    | send w hw => rw [lineMayBeLow_of_sentWord hw] at hmay; cases hmay
    | reset t0 rem hp =>
      rcases resetStep_outcomes t0 rem s with e | e | e <;> rw [e] at ht ⊢
      · rfl
      · exact hmay
      · cases ht
    | fault => exact hmay
    | _ => exact absurd hmay (by simp [lineMayBeLow, *])
  · rw [hp]; rfl
  · rw [hhigh] at ht; cases ht

/-! ## The invariant of the machine -/

theorem State.Inv.popTurn {s : State} (h : s.Inv) : s.popTurn.Inv :=
  ⟨h.accWf, h.txBound, h.lastLogged, h.pastLog, h.spaced, h.phaseOk, h.responses, h.lineHigh⟩

theorem envMove_drPending (m : Turn) {s : State} (h : s.drPending = true) : (envMove m s).drPending = true := by
  cases m with
  | drEdge => rfl
  | _ => exact h

/-- No move of the environment touches what the invariant says, but for the bytes of `tx`, the clock and the latch. -/
theorem State.Inv.envMove {s : State} (h : s.Inv) (m : Turn) : (envMove m s).Inv where
  accWf := by rw [envMove_acc]; exact h.accWf
  txBound := by
    rcases envMove_tx_cases m s with ⟨n, -, e⟩ | e <;> rw [e]
    · exact (List.drop_sublist n s.tx).length_le.trans h.txBound
    · exact h.txBound
  lastLogged := by rw [envMove_lastTxn, envMove_busLog]; exact h.lastLogged
  pastLog := by rw [envMove_busLog]; exact fun e he => (h.pastLog e he).trans (envMove_now m s)
  spaced := by rw [envMove_busLog]; exact h.spaced
  phaseOk := h.phaseOk.mono (envMove_phase m s) (envMove_cfg m s) (envMove_busLog m s) (envMove_rstLine m s)
    (envMove_resp m s) (envMove_now m s) (envMove_drPending m)
  responses := by rw [envMove_resp]; exact h.responses
  lineHigh := by rw [envMove_rstLine, envMove_phase]; exact h.lineHigh

/-- A step of the loop keeps the invariant, part by part. -/
theorem LoopStep.inv {s t : State} (hstep : LoopStep s t) (h : s.Inv) : t.Inv where
  accWf := hstep.acc_wf h.accWf
  txBound := hstep.tx_bound h.txBound
  lastLogged := by
    rcases hstep.busLog_cases with ⟨hlog, hlast⟩ | ⟨w, r, -, hlog, hlast⟩ <;> rw [hlog, hlast]
    · exact h.lastLogged
    · simp
  pastLog := by
    rw [hstep.now_eq]
    rcases hstep.busLog_cases with ⟨hlog, -⟩ | ⟨w, r, -, hlog, -⟩ <;> rw [hlog]
    · exact h.pastLog
    · exact List.forall_mem_append.2 ⟨h.pastLog, by simp⟩
  spaced := by
    rcases hstep.busLog_cases with ⟨hlog, -⟩ | ⟨w, r, hover, hlog, -⟩ <;> rw [hlog]
    · exact h.spaced
    · exact h.spaced.append h.lastLogged hover w r
  phaseOk := hstep.phaseOk h.accWf h.phaseOk
  responses := hstep.responses h.responses
  lineHigh := hstep.lineHigh h.lineHigh

/-- Settles O26: a step is the loop's or a move of the environment, once the turn is taken. -/
theorem stepKeepsInvariant : Obligations.StepKeepsInvariant := by
  intro s t hinv hstep
  rcases step_cases hstep with ⟨-, h⟩ | ⟨-, rfl⟩
  · exact h.inv hinv.popTurn
  · exact hinv.popTurn.envMove s.nextTurn

end Sys2Proof.Machine
end

section
/-! The statements of 43_firmware_loop: what a step can do to `cfg.msc_ctrl` and to the queue of responses, each step of the
loop and each instruction with all it changes, and whole handshakes and captures. -/

namespace Sys2Proof.Machine

/-! ## The loop's step, phase by phase -/

section
variable {s : State} (hfw : s.nextTurn = .fw)
include hfw

theorem step_top (hp : s.phase = .top) : step s = .next (topStep s.popTurn) := by
  rw [step_fw hfw, fwStep, State.popTurn_phase, hp]

theorem step_feed {rem : List Byte} (hp : s.phase = .feed rem) : step s = feedStep rem s.popTurn := by
  rw [step_fw hfw, fwStep, State.popTurn_phase, hp]

theorem step_cfgSettle {f : ConfigField} {cand : FwConfig} {t0 : Nat} {rem : List Byte}
    (hp : s.phase = .cfgSettle f cand t0 rem) : step s = .next (settleStep f cand t0 rem s.popTurn) := by
  rw [step_fw hfw, fwStep, State.popTurn_phase, hp]

theorem step_rstLow {t0 : Nat} {rem : List Byte} (hp : s.phase = .rstLow t0 rem) :
    step s = .next (resetStep t0 rem s.popTurn) := by
  rw [step_fw hfw, fwStep, State.popTurn_phase, hp]

theorem step_flush (hp : s.phase = .flush) : step s = .next (flushStep s.popTurn) := by
  rw [step_fw hfw, fwStep, State.popTurn_phase, hp]

theorem step_burstCheck (hp : s.phase = .burstCheck) : step s = .next (burstCheckStep s.popTurn) := by
  rw [step_fw hfw, fwStep, State.popTurn_phase, hp]

theorem step_fault {kind : ErrorKind} (hp : s.phase = .fault kind) : step s = .next s.popTurn := by
  rw [step_fw hfw, fwStep, State.popTurn_phase, hp]

theorem step_send {w : Word} (hw : sentWord s.phase = some w) : step s = .next (xfer w s.popTurn) := by
  rw [step_fw hfw, fwStep_of_sentWord (s := s.popTurn) hw]

end

/-! ## Steps that may be held (43_firmware_loop R111, R116, R118) -/

section
variable {s : State} (hc : s.clockOk = true)
include hc

theorem withClock_ready {ready : State → Bool} (h : ready s.popClock = true) (k : State → State) :
    withClock (fun s => if ready s then k s else s) s = k s.popClock := by
  rw [withClock_ok hc, if_pos h]

theorem withClock_held {ready : State → Bool} (h : ready s.popClock = false) (k : State → State) :
    withClock (fun s => if ready s then k s else s) s = s.popClock := by
  rw [withClock_ok hc, h]
  rfl

theorem xfer_of_ready (h : IntervalOver s) (w : Word) : xfer w s = transact w s.popClock :=
  withClock_ready (ready := fun s => intervalOver Config.tMin s.lastTxn s.now) hc (intervalOver_eq_true.2 h) _

theorem xfer_of_held (h : ¬IntervalOver s) (w : Word) : xfer w s = s.popClock :=
  withClock_held (ready := fun s => intervalOver Config.tMin s.lastTxn s.now) hc
    (Bool.eq_false_iff.2 (mt intervalOver_eq_true.1 h)) _

theorem settleStep_of_over {t0 : Nat} (h : t0 + Config.tSettle ≤ s.now) (f : ConfigField) (cand : FwConfig)
    (rem : List Byte) : settleStep f cand t0 rem s = s.popClock.setPhase (.cfgR1 f cand rem) :=
  withClock_ready (ready := fun s => elapsed Config.tSettle t0 s.now) hc (elapsed_iff.2 h) _

theorem settleStep_of_held {t0 : Nat} (h : s.now < t0 + Config.tSettle) (f : ConfigField) (cand : FwConfig)
    (rem : List Byte) : settleStep f cand t0 rem s = s.popClock :=
  withClock_held (ready := fun s => elapsed Config.tSettle t0 s.now) hc (decide_eq_false (Nat.not_le.2 h)) _

theorem resetStep_of_over {t0 : Nat} (h : t0 + Config.tRst ≤ s.now) (rem : List Byte) :
    resetStep t0 rem s =
      (((s.popClock.setReset .high).setCfg FwConfig.default).pushResp .rst).setPhase (.feed rem) :=
  withClock_ready (ready := fun s => elapsed Config.tRst t0 s.now) hc (elapsed_iff.2 h) _

theorem resetStep_of_held {t0 : Nat} (h : s.now < t0 + Config.tRst) (rem : List Byte) :
    resetStep t0 rem s = s.popClock :=
  withClock_held (ready := fun s => elapsed Config.tRst t0 s.now) hc (decide_eq_false (Nat.not_le.2 h)) _

theorem startReset_of_ok : startReset s = (s.popClock.setReset .low).setPhase (.rstLow s.now s.phase.rem) :=
  withClock_ok hc _

end

section
variable {s : State} (hc : s.clockOk = false)
include hc

theorem xfer_of_err (w : Word) : xfer w s = s.popClock.raiseFault .clockError := withClock_err hc _

theorem settleStep_of_err (f : ConfigField) (cand : FwConfig) (t0 : Nat) (rem : List Byte) :
    settleStep f cand t0 rem s = s.popClock.raiseFault .clockError := withClock_err hc _

theorem resetStep_of_err (t0 : Nat) (rem : List Byte) : resetStep t0 rem s = s.popClock.raiseFault .clockError :=
  withClock_err hc _

theorem startReset_of_err : startReset s = s.popClock.raiseFault .clockError := withClock_err hc _

end

/-! ## What a transaction can do (43_firmware_loop R111) -/

/-- A phase that sends no word goes on unchanged after a transaction (log 11). -/
theorem afterXfer_of_no_word {s : State} (h : sentWord s.phase = none) (r : Word) : afterXfer r s = s := by
  unfold afterXfer
  cases hp : s.phase <;> rw [hp] at h <;> first | rfl | cases h

/-- What a bus word can do in any phase: with no transaction (the fault or a hold), or after it, only the phase changes; or the
handshake commits, an RQR's response is queued, or the captured burst is emitted. -/
theorem xfer_outcomes (w : Word) (s : State) :
    (∃ p, xfer w s = s.popClock.setPhase p) ∨
    ∃ r, (∃ p, xfer w s = (s.transacted w r).setPhase p) ∨
      (∃ f cand rem, s.phase = .cfgR2 f cand rem ∧ mscDecode r = cand.mscCtrl ∧
        xfer w s = (((s.transacted w r).setCfg cand).pushResp (.cfg f)).setPhase (.feed rem)) ∨
      (∃ v rem, s.phase = .rqr2 v rem ∧ xfer w s = ((s.transacted w r).pushResp (.rqr r)).setPhase (.feed rem)) ∨
      (∃ p sel ws, s.phase = .burstWord p sel ws ∧ ws.length + 1 = frameWords p ∧
        xfer w s = emitBurst p sel (ws ++ [r]) (s.transacted w r)) := by
  rcases xfer_cases w s with ⟨-, e⟩ | ⟨-, -, e⟩ | ⟨-, -, e⟩
  · exact .inl ⟨_, e⟩
  · exact .inl ⟨s.phase, e⟩
  · refine .inr ⟨s.popClock.answer w, ?_⟩
    rw [e, transact]
    cases hw : sentWord s.phase with
    | none => exact .inl ⟨s.phase, afterXfer_of_no_word (s := s.transacted w (s.popClock.answer w)) hw _⟩
    | some w' =>
      exact (afterXfer_cases (s := s.transacted w (s.popClock.answer w)) hw (s.popClock.answer w)).imp
        (Exists.imp fun _ => And.right) id

/-! ## `cfg.msc_ctrl` (43_firmware_loop R126) -/

/-- Only the end of a restart and the commit of a handshake write `cfg.msc_ctrl`; the commit follows the answer to FILL. -/
theorem LoopStep.mscCtrl_cases {s t : State} (h : LoopStep s t) :
    t.cfg.mscCtrl = s.cfg.mscCtrl ∨
    (∃ t0 rem, s.phase = .rstLow t0 rem ∧ t.cfg.mscCtrl = mscDecode Config.mscDefault) ∨
    (∃ f cand rem r, s.phase = .cfgR2 f cand rem ∧ mscDecode r = cand.mscCtrl ∧ t.cfg = cand ∧
      t.busLog = s.busLog ++ [{ time := s.now, sent := Config.fill, received := r }]) := by
  cases h with
  | feedMessage rem m rest a _ _ _ _ =>
    rcases dispatched_cases m ((s.setAcc a).setPhase (.feed rest)) with
      ⟨v, -, e⟩ | ⟨-, -, e⟩ | ⟨-, -, e⟩ | e | ⟨p, e⟩ <;> rw [e] <;> exact .inl rfl
  | send w hw =>
    rcases xfer_outcomes w s with
      ⟨p, e⟩ | ⟨r, ⟨p, e⟩ | ⟨f, cand, rem, hp, hr, e⟩ | ⟨v, rem, -, e⟩ | ⟨p, sel, ws, -, -, e⟩⟩ <;> rw [e]
    case inr.inr.inl =>
      rw [hp] at hw
      cases hw
      exact .inr (.inr ⟨f, cand, rem, r, hp, hr, rfl, rfl⟩)
    all_goals exact .inl (by simp [emitBurst])
  | reset t0 rem hp =>
    rcases resetStep_cases t0 rem s with ⟨p, e⟩ | ⟨-, e⟩ <;> rw [e]
    · exact .inl rfl
    · exact .inr (.inl ⟨t0, rem, hp, rfl⟩)
  | _ => left; simp

/-- Settles O50: at the commit, the invariant says which two transactions the answer to FILL follows. -/
theorem committedConfigurationIsVerified : Obligations.CommittedConfigurationIsVerified := by
  intro s t hinv hstep hne
  rcases step_cases hstep with ⟨-, h⟩ | ⟨-, rfl⟩
  · rcases h.mscCtrl_cases with hsame | hrestart | ⟨f, cand, rem, r, hp, hr, rfl, hlog⟩
    · exact absurd hsame hne
    · exact .inl hrestart
    · have hok := hinv.popTurn.phaseOk
      rw [PhaseOk, hp] at hok
      obtain ⟨-, pre, e1, e2, hpast, hwrote, hasked, hsettled⟩ := hok
      exact .inr ⟨pre, e1, e2, ⟨s.now, Config.fill, r⟩, by rw [hlog, hpast, List.append_assoc]; rfl,
        hwrote, hasked, rfl, hsettled, hr⟩
  · exact absurd (by rw [envMove_cfg, State.popTurn_cfg]) hne

/-! ## The queue of responses (43_firmware_loop R127) -/

/-- What dispatch queues: nothing, or the CFG message itself (43_firmware_loop R115, R116). -/
theorem dispatched_ack (m : Message) (s : State) :
    (dispatched m s).resp = s.resp ∨ ∃ f, m = .cfg f ∧ (dispatched m s).resp = s.resp ++ [.cfg f] := by
  cases m with
  | cfg f => exact (dispatched_resp (.cfg f) s).imp id fun h => ⟨f, rfl, h.2⟩
  | rst =>
    rw [dispatched, startReset]
    rcases withClock_cases _ s with ⟨-, e⟩ | ⟨-, e⟩ <;> rw [e] <;> exact .inl rfl
  | _ => exact .inl rfl

/-- The queue is as before, emptied by the flush, or longer by one message, and which one the phase says. -/
theorem LoopStep.queued_cases {s t : State} (h : LoopStep s t) :
    t.resp = s.resp ∨ (s.phase = .flush ∧ t.resp = []) ∨
    (∃ m, t.resp = s.resp ++ [m] ∧
      ((∃ rem rest a, s.phase = .feed rem ∧ s.acc.feed rem = (.success m rest, a)) ∨
       (∃ f cand rem, s.phase = .cfgR2 f cand rem ∧ m = .cfg f ∧ t.cfg = cand) ∨
       (∃ t0 rem, s.phase = .rstLow t0 rem ∧ m = .rst) ∨
       (∃ v rem e, s.phase = .rqr2 v rem ∧ t.busLog = s.busLog ++ [e] ∧ m = .rqr e.received))) := by
  cases h with
  | feedMessage rem m rest a hp _ hf _ =>
    rcases dispatched_ack m ((s.setAcc a).setPhase (.feed rest)) with e | ⟨f, rfl, e⟩
    · exact .inl e
    · exact .inr (.inr ⟨.cfg f, e, .inl ⟨rem, rest, a, hp, hf⟩⟩)
  | send w hw =>
    rcases xfer_outcomes w s with
      ⟨p, e⟩ | ⟨r, ⟨p, e⟩ | ⟨f, cand, rem, hp, -, e⟩ | ⟨v, rem, hp, e⟩ | ⟨p, sel, ws, -, -, e⟩⟩ <;> rw [e]
    case inr.inr.inl => exact .inr (.inr ⟨.cfg f, rfl, .inr (.inl ⟨f, cand, rem, hp, rfl, rfl⟩)⟩)
    case inr.inr.inr.inl => exact .inr (.inr ⟨.rqr r, rfl, .inr (.inr (.inr ⟨v, rem, _, hp, rfl, rfl⟩))⟩)
    all_goals exact .inl (by simp [emitBurst])
  | settle f cand t0 rem _ =>
    obtain ⟨p, e⟩ := settleStep_eq_setPhase f cand t0 rem s
    exact .inl (by rw [e]; rfl)
  | reset t0 rem hp =>
    rcases resetStep_cases t0 rem s with ⟨p, e⟩ | ⟨-, e⟩ <;> rw [e]
    · exact .inl rfl
    · exact .inr (.inr ⟨.rst, rfl, .inr (.inr (.inl ⟨t0, rem, hp, rfl⟩))⟩)
  | flush hp => exact .inr (.inl ⟨hp, rfl⟩)
  | burstCheck _ =>
    obtain ⟨p, e⟩ := burstCheckStep_eq_setPhase s
    exact .inl (by rw [e]; rfl)
  | _ => exact .inl rfl

/-- Settles O56: a step of the loop queues one message at most, and no move of the environment queues any. -/
theorem acksEqualRequests : Obligations.AcksEqualRequests := by
  intro s t hstep
  rcases step_cases hstep with ⟨-, h⟩ | ⟨-, rfl⟩
  · exact h.queued_cases
  · exact .inl (by rw [envMove_resp, State.popTurn_resp])

/-! ## What an instruction runs as (43_firmware_loop R111, R114, R125) -/

/-- Every instruction is an effect in the running loop, and in the fault it is refused a step (43_firmware_loop R125). -/
theorem exec_eq_whileRunning (i : Instr) : ∃ k : State → State, ∀ s, exec i s = whileRunning k s := by
  cases i <;> exact ⟨_, fun _ => rfl⟩

/-- An instruction that has a next state runs in the running loop. -/
theorem isFault_of_exec {i : Instr} {s t : State} (h : exec i s = .next t) : s.phase.isFault = false := by
  obtain ⟨k, hk⟩ := exec_eq_whileRunning i
  cases hp : s.phase with
  | fault kind => rw [hk, whileRunning_fault hp] at h; cases h
  | _ => rfl

/-- In the running loop an instruction of the bus is the transaction of its word. -/
theorem exec_bus {i : Instr} {w : Word} {s : State} (h : encode i = .bus w) (hf : s.phase.isFault = false) :
    exec i s = .next (xfer w s) := by
  rw [exec_of_encode_bus h, runXfer, whileRunning_next hf]

theorem instr_eq_rst {m : Message} : m.instr = .rst ↔ m = .rst := by
  cases m with
  | cfg f => cases f <;> simp [Message.instr]
  | _ => simp [Message.instr]

/-- Settles O49: the loop's turn passes, no move of the environment writes a register named here, and `exec` refuses. -/
theorem faultIsSticky : Obligations.FaultIsSticky := by
  intro s k hp
  refine ⟨fun hfw => step_fault hfw hp, fun t hstep => ?_, fun i => ?_⟩
  · by_cases hfw : s.nextTurn = .fw
    · rw [step_fault hfw hp] at hstep
      cases hstep
      exact ⟨hp, rfl, rfl, rfl, rfl, rfl, rfl⟩
    · rw [step_env hfw] at hstep
      cases hstep
      exact ⟨(envMove_phase ..).trans hp, envMove_cfg .., envMove_acc .., envMove_lastTxn .., envMove_busLog ..,
        envMove_rstLine .., envMove_resp ..⟩
  · obtain ⟨run, hrun⟩ := exec_eq_whileRunning i
    rw [hrun, whileRunning_fault hp]

/-! ## The frame of an instruction -/

/-- What a message leaves unchanged (43_firmware_loop R115 to R119). -/
theorem dispatched_frame (m : Message) (s : State) :
    (dispatched m s).turns = s.turns ∧ (dispatched m s).drPending = s.drPending ∧
    (dispatched m s).cfg.mscCtrl = s.cfg.mscCtrl ∧ ((∀ v, m ≠ .cfg (.burstEn v)) → (dispatched m s).cfg = s.cfg) ∧
    (m ≠ .rst → (dispatched m s).rstLine = s.rstLine) := by
  rcases dispatched_cases m s with ⟨v, hm, e⟩ | ⟨hm, -, e⟩ | ⟨-, -, e⟩ | e | ⟨p, e⟩ <;> rw [e]
  · exact ⟨rfl, rfl, rfl, fun h => absurd hm (h v), fun _ => rfl⟩
  · exact ⟨rfl, rfl, rfl, fun _ => rfl, fun h => absurd hm h⟩
  all_goals exact ⟨rfl, rfl, rfl, fun _ => rfl, fun _ => rfl⟩

/-- What a bus word leaves unchanged outside the commit, the second answer of an RQR and the last word of a capture. -/
theorem xfer_frame (w : Word) (s : State) :
    (xfer w s).turns = s.turns ∧ ((xfer w s).cfg ≠ s.cfg → ∃ f cand rem, s.phase = .cfgR2 f cand rem) ∧
    ((xfer w s).tx ≠ s.tx ∨ (xfer w s).drPending ≠ s.drPending →
      ∃ p sel ws, s.phase = .burstWord p sel ws ∧ ws.length + 1 = frameWords p) ∧
    ((xfer w s).resp ≠ s.resp → (∃ f cand rem, s.phase = .cfgR2 f cand rem) ∨ ∃ v rem, s.phase = .rqr2 v rem) := by
  rcases xfer_outcomes w s with
    ⟨p, e⟩ | ⟨r, ⟨p, e⟩ | ⟨f, cand, rem, hp, -, e⟩ | ⟨v, rem, hp, e⟩ | ⟨p, sel, ws, hp, hl, e⟩⟩ <;> rw [e]
  case inr.inr.inl => exact ⟨rfl, fun _ => ⟨f, cand, rem, hp⟩, by simp, fun _ => .inl ⟨f, cand, rem, hp⟩⟩
  case inr.inr.inr.inl => exact ⟨rfl, by simp, by simp, fun _ => .inr ⟨v, rem, hp⟩⟩
  case inr.inr.inr.inr =>
    exact ⟨by simp [emitBurst], by simp [emitBurst], fun _ => ⟨p, sel, ws, hp, hl⟩, by simp [emitBurst]⟩
  all_goals exact ⟨rfl, by simp, by simp, by simp⟩

/-- Settles O59: an instruction is a message's dispatch or a bus word's transaction. -/
theorem instructionFrame : Obligations.InstructionFrame := by
  intro i s t hexec
  have hf := isFault_of_exec hexec
  rcases i.message_or_bus with ⟨m, rfl⟩ | ⟨w, hw⟩
  · cases hexec.symm.trans (exec_instr m hf)
    obtain ⟨hacc, hlog, hlast⟩ := dispatched_bus s m
    obtain ⟨hturns, hdr, hmsc, hcfg, hline⟩ := dispatched_frame m s
    refine ⟨by simp, by rw [hacc], dispatched_rx m s, dispatched_now m s, hturns, fun bs _ => ?_, ?_⟩
    · refine ⟨hlog, hlast, dispatched_tx m s, hdr, hmsc, fun hm => hcfg ?_, fun hm => hline ?_, ?_⟩
      · exact fun v hv => hm v (by rw [hv]; rfl)
      · exact mt instr_eq_rst.2 hm
      · exact (dispatched_ack m s).imp id fun ⟨f, hm, e⟩ => ⟨f, by rw [hm], e⟩
    · intro w hw
      rw [encode_instr] at hw
      cases hw
  · cases hexec.symm.trans (exec_bus hw hf)
    obtain ⟨hturns, hcfg, htx, hresp⟩ := xfer_frame w s
    refine ⟨by simp, by simp, xfer_rx w s, xfer_now w s, hturns, fun bs hbs => ?_, fun _ _ => ?_⟩
    · rw [hw] at hbs
      cases hbs
    · exact ⟨xfer_rstLine w s, hcfg, htx, hresp⟩

/-! ## Bus words (43_firmware_loop R111) -/

/-- Settles O41: a bus instruction is the transaction of its word, in the three cases of `xfer`. -/
theorem busInstructionsTransact : Obligations.BusInstructionsTransact := by
  refine ⟨⟨rfl, rfl, fun _ => rfl, fun _ _ => rfl⟩, fun i w s hw hf => ?_⟩
  rw [exec_bus hw hf]
  refine ⟨fun hc hi => ⟨_, rfl, ?_⟩, fun hc hi => ?_, fun hc => ?_⟩
  · rw [xfer_of_ready hc hi]
    exact ⟨transact_busLog w _, transact_lastTxn w _, by simp [transact]⟩
  · rw [xfer_of_held hc hi]
  · rw [xfer_of_err hc]
    rfl

/-- A transaction takes a phase that sends a word to another phase. -/
theorem transact_phase_ne {s : State} {w : Word} (hw : sentWord s.phase = some w) : (transact w s).phase ≠ s.phase := by
  rw [transact]
  rcases afterXfer_cases (s := s.popAnswer.logTxn w (s.answer w)) hw (s.answer w) with
    ⟨p, hadv, e⟩ | ⟨f, cand, rem, hp, -, e⟩ | ⟨v, rem, hp, e⟩ | ⟨p, sel, ws, hp, -, e⟩ <;> rw [e]
  · show p ≠ s.phase
    change BusAdvance s.now (s.answer w) s.phase p at hadv
    generalize s.phase = q at hadv
    cases hadv <;> simp
  all_goals
    rw [show s.phase = _ from hp]
    simp [emitBurst]

theorem step_of_clockFails {s : State} {w : Word} (h : ClockFails s) (hw : sentWord s.phase = some w) :
    step s = .next { s.popTurn.popClock with phase := .fault .clockError } := by
  rw [step_send h.1 hw, xfer_of_err h.2]
  rfl

/-- Settles O42: the step of a phase that sends a word is `xfer`, in its three cases. -/
theorem xferFromEveryBusPhase : Obligations.XferFromEveryBusPhase := by
  intro s w hw
  refine ⟨fun h => step_of_clockFails h hw, fun h hi => ?_, fun h => ⟨_, step_of_ready h hw, ?_⟩⟩
  · rw [step_send h.1 hw, xfer_of_held (s := s.popTurn) h.2 hi]
  · exact ⟨transact_busLog w _, transact_lastTxn w _, transact_phase_ne (s := s.popTurn.popClock) hw⟩

/-- Settles O29: the step is the transaction of the word, and so is every instruction the word decodes to. -/
theorem stepRunsDecodedBusWord : Obligations.StepRunsDecodedBusWord := by
  intro s w hfw hw
  have hrun : step s = runXfer w s.popTurn := by
    rw [step_send hfw hw, runXfer, whileRunning_next (s := s.popTurn) (isFault_of_sentWord hw)]
  exact ⟨fun i hi => hrun.trans (exec_decodeBus hi _).symm, fun _ _ => hrun⟩

/-! ## The message instructions (43_firmware_loop R114 to R119) -/

/-- A message dispatched from `Feed`, run on the phase written out. -/
theorem exec_feed (m : Message) {s : State} {rest : List Byte} (hp : s.phase = .feed rest) :
    exec m.instr s = .next (dispatched m (s.setPhase (.feed rest))) := by
  rw [← hp]
  exact exec_instr m (by rw [hp]; rfl)

/-- Settles O36: the dispatch of CFG.BurstEn. -/
theorem cfgBurstEnIsLocal : Obligations.CfgBurstEnIsLocal :=
  fun _ _ v hp => exec_feed (.cfg (.burstEn v)) hp

/-- Settles O37: the dispatch of each request, its candidate being `cfg` with that field replaced. -/
theorem cfgMscRequestDispatch : Obligations.CfgMscRequestDispatch := by
  intro s rest hp
  have request (f : ConfigField) := exec_feed (.cfg f) hp
  exact ⟨fun v => request (.burst32 v), fun v => request (.burstSel v), fun v => request (.linGComp v),
    fun v => request (.pop v), fun v => request (.bandwidth v), fun v => request (.syncMode v),
    fun v => request (.syncPol v), fun v => request (.drPol v)⟩

/-- Settles O40: the dispatch of each of the three. -/
theorem inboundBurstAndErrIgnored : Obligations.InboundBurstAndErrIgnored :=
  fun _ _ hp => ⟨fun sel ws => exec_feed (.b16 sel ws) hp, fun sel ws => exec_feed (.b32 sel ws) hp,
    fun tag => exec_feed (.err tag) hp⟩

/-- Settles O39: the dispatch of RST and the step of the pulse, each in the cases of its clock query. -/
theorem restartPulse : Obligations.RestartPulse := by
  refine ⟨fun s rest hp hc => ?start, fun s rest hp hc => ?startFault,
    fun s t0 rest hp hc => ⟨fun h => ?finish, fun h => ?held⟩, fun s t0 rest hp hc => ?fault⟩
  case start =>
    exact (exec_feed .rst hp).trans (congrArg _ (startReset_of_ok (s := s.setPhase (.feed rest)) hc))
  case startFault =>
    exact (exec_feed .rst hp).trans (congrArg _ (startReset_of_err (s := s.setPhase (.feed rest)) hc))
  case finish => exact (step_rstLow hc.1 hp).trans (congrArg _ (resetStep_of_over hc.2 h rest))
  case held => exact (step_rstLow hc.1 hp).trans (congrArg _ (resetStep_of_held hc.2 h rest))
  case fault => exact (step_rstLow hc.1 hp).trans (congrArg _ (resetStep_of_err hc.2 t0 rest))

/-! ## Steps that send a word, with all they change (43_firmware_loop R111, R116, R117, R122 to R124) -/

/-- The step that sends a phase's word, written with `sentState`: the transaction, then the phase's continuation. -/
theorem step_sent {s : State} {p : Phase} {w : Word} (h : ReadyToSend s) (hp : s.phase = p) (hw : sentWord p = some w) :
    step s = .next (afterXfer (answerTo s w) (sentState s w p)) := by
  subst hp
  exact step_of_ready h hw

/-- Settles O43: the continuation of each phase, and the settle delay in the three cases of its clock query. -/
theorem handshakePhases : Obligations.HandshakePhases := by
  refine ⟨fun s f cand rem h => ⟨?cfgW1, ?cfgW2, ?cfgR1, ?commit, ?drop⟩,
    fun s f cand t0 rem hp => ⟨fun hc h => ?settled, fun hc h => ?held, fun hc => ?fault⟩⟩
  case cfgW1 => exact fun hp => step_sent h hp rfl
  case cfgW2 => exact fun hp => step_sent h hp rfl
  case cfgR1 => exact fun hp => step_sent h hp rfl
  case commit => exact fun hp hr => (step_sent h hp rfl).trans (congrArg _ (finishHandshake_commit hr))
  case drop => exact fun hp hr => (step_sent h hp rfl).trans (congrArg _ (finishHandshake_drop hr))
  case settled => exact (step_cfgSettle hc.1 hp).trans (congrArg _ (settleStep_of_over hc.2 h f cand rem))
  case held => exact (step_cfgSettle hc.1 hp).trans (congrArg _ (settleStep_of_held hc.2 h f cand rem))
  case fault => exact (step_cfgSettle hc.1 hp).trans (congrArg _ (settleStep_of_err hc.2 f cand t0 rem))

/-- Settles O38: RQR's dispatch names the host's word, and the two phases send it and FILL. -/
theorem rqrForwardsRawPair : Obligations.RqrForwardsRawPair := by
  refine ⟨fun s rest v hp => exec_feed (.rqr v) hp, fun s rest v h hp => step_sent h hp rfl,
    fun s rest v h hp => step_sent h hp rfl, fun s rest v h hp => ?_⟩
  rcases hp with hp | hp
  · exact step_of_clockFails (w := v) h (by rw [hp]; rfl)
  · exact step_of_clockFails (w := Config.fill) h (by rw [hp]; rfl)

theorem takeBurstWord_last {p : Precision} {ws : List Word} (h : ws.length + 1 = frameWords p) (sel : BurstSel) (r : Word)
    (s : State) : takeBurstWord p sel ws r s = emitBurst p sel (ws ++ [r]) s := by
  rw [takeBurstWord, if_pos (by rw [List.length_append, List.length_singleton, h])]

theorem takeBurstWord_more {p : Precision} {ws : List Word} (h : ws.length + 1 ≠ frameWords p) (sel : BurstSel) (r : Word)
    (s : State) : takeBurstWord p sel ws r s = s.setPhase (.burstWord p sel (ws ++ [r])) := by
  rw [takeBurstWord, if_neg (by rwa [List.length_append, List.length_singleton])]

theorem State.txWrite_fits {s : State} {bs : List Byte} (hok : s.writeOk = true)
    (hfits : s.tx.length + bs.length ≤ Config.txCap) : (s.txWrite bs).2 = s.popWrite.setTx (s.tx ++ bs) := by
  rw [State.txWrite, hok, txFits_iff.2 hfits]
  rfl

theorem State.txWrite_dropped {s : State} {bs : List Byte}
    (h : Config.txCap < s.tx.length + bs.length ∨ s.writeOk = false) : (s.txWrite bs).2 = s.popWrite := by
  rcases s.txWrite_cases bs with ⟨hok, hfits, -⟩ | ⟨-, e⟩
  · rw [hok] at h
    exact absurd h (by simpa using hfits)
  · exact e

/-- Settles O44: the continuation of each phase of a capture, and the emit in the two cases of its write. -/
theorem captureTransactions : Obligations.CaptureTransactions := by
  intro s p sel h
  refine ⟨fun hp => step_sent h hp rfl, fun ws hp hmore => ?_, fun ws hp hlast fr hfr => ?_, rfl, rfl⟩
  · exact (step_sent h hp rfl).trans (congrArg _ (takeBurstWord_more hmore sel _ _))
  · have hstep := (step_sent h hp rfl).trans (congrArg _ (takeBurstWord_last hlast sel _ _))
    rw [hstep, emitBurst]
    subst hfr
    refine ⟨fun hok hfits => congrArg Host.Outcome.next ?_, fun hdrop => congrArg Host.Outcome.next ?_⟩
    · exact congrArg (fun t => t.clearEdge.setPhase .top) 
        (State.txWrite_fits (s := sentState s Config.fill (.burstWord p sel ws)) hok hfits)
    · exact congrArg (fun t => t.clearEdge.setPhase .top) 
        (State.txWrite_dropped (s := sentState s Config.fill (.burstWord p sel ws)) hdrop)

/-! ## The loop's own steps (43_firmware_loop R112, R113, R120, R121) -/

/-- Settles O32: the transport's read is the one draw of Top. -/
theorem topTakesOneChunk : Obligations.TopTakesOneChunk := by
  intro s hfw hp
  rw [step_top hfw hp, topStep]
  refine ⟨fun hrx => ?_, fun hrx hok => ?_, fun hrx hfail => ?_⟩
  · rw [if_pos (c := s.popTurn.rx = []) hrx]; rfl
  · rw [if_neg (c := s.popTurn.rx = []) hrx, State.rxRead, if_pos hok]; rfl
  · rw [if_neg (c := s.popTurn.rx = []) hrx, State.rxRead, hfail]; rfl

section
variable {s : State} {rem rest : List Byte} {a : Accumulator}

theorem feedStep_consumed (hne : rem ≠ []) (h : s.acc.feed rem = (.consumed, a)) :
    feedStep rem s = .next ((s.setAcc a).setPhase .flush) := by
  rw [feedStep, if_neg hne, h]

/-- FEED of no byte is consumed, so an outcome that leaves a rest is one of a byte fed. -/
theorem ne_nil_of_feed {r : FeedResult} (h : s.acc.feed rem = (r, a)) (hr : r ≠ .consumed) : rem ≠ [] := by
  rintro rfl
  cases h
  exact hr rfl

theorem feedStep_overFull (h : s.acc.feed rem = (.overFull rest, a)) :
    feedStep rem s = .next ((s.setAcc a).setPhase (.feed rest)) := by
  rw [feedStep, if_neg (ne_nil_of_feed h nofun), h]

theorem feedStep_deserError (h : s.acc.feed rem = (.deserError rest, a)) :
    feedStep rem s = .next ((s.setAcc a).setPhase (.feed rest)) := by
  rw [feedStep, if_neg (ne_nil_of_feed h nofun), h]

end

/-- Settles O33: the outcomes of FEED but the decoded message. -/
theorem feedStepOutcomes : Obligations.FeedStepOutcomes := by
  intro s rem a hfw hp
  rw [step_feed hfw hp]
  refine ⟨fun hnil => ?_, fun hne h => feedStep_consumed (s := s.popTurn) hne h,
    fun rest h => feedStep_overFull (s := s.popTurn) h, fun rest h => feedStep_deserError (s := s.popTurn) h⟩
  rw [feedStep, if_pos hnil]
  rfl

/-- A step that completes a frame dispatches its message, and RST whose clock query fails raises the fault only. -/
theorem step_message {s : State} {rem rest : List Byte} {m : Message} {a : Accumulator} (hfw : s.nextTurn = .fw)
    (hp : s.phase = .feed rem) (hf : s.acc.feed rem = (.success m rest, a)) :
    (m ≠ .rst ∨ ClockAnswers s → step s = exec m.instr { s.popTurn with acc := a, phase := .feed rest }) ∧
    (m = .rst → ClockFails s → step s = .next { s.popTurn.popClock with phase := .fault .clockError }) := by
  have hstep := (step_feed hfw hp).trans (feedStep_success (s := s.popTurn) hf)
  rcases dispatchMessage_cases s.acc m (s := (s.popTurn.setAcc a).setPhase (.feed rest)) rfl with
    ⟨hok, e, -⟩ | ⟨hrst, hfail, e⟩
  · refine ⟨fun _ => hstep.trans e, fun hrst hc => ?_⟩
    cases (hok.resolve_left (not_not_intro hrst)).symm.trans hc.2
  · refine ⟨fun hok => ?_, fun _ _ => hstep.trans e⟩
    cases (hok.resolve_left (not_not_intro hrst)).2.symm.trans hfail

/-- Settles O28: the message FEED decodes, and one stuffed by the encoder, which FEED into an empty accumulator decodes. -/
theorem stepRunsDecodedMessage : Obligations.StepRunsDecodedMessage := by
  refine ⟨fun s rem rest m a hfw hp hf => step_message hfw hp hf, fun s bs rest i hfw hacc hidx hp hi => ?_⟩
  obtain ⟨m, hm, rfl⟩ := Decoded.map_eq_ok.1 hi
  obtain ⟨buf, hf⟩ := Accumulator.feed_cobsEncode hacc.canonical hidx hm rest
  obtain ⟨hrun, hfault⟩ := step_message hfw hp hf
  rw [ne_eq, instr_eq_rst]
  exact ⟨fun h => ⟨_, rfl, hrun h⟩, hfault⟩

/-- Settles O35: the test of the two flags, and the precision read from `cfg`. -/
theorem burstCheckChoosesCapture : Obligations.BurstCheckChoosesCapture := by
  intro s hfw hp
  rw [step_burstCheck hfw hp, burstCheckStep, State.popTurn_cfg, State.popTurn_drPending]
  refine ⟨fun hen hdr hprec => ?_, fun hen hdr hprec => ?_, fun hoff => ?_⟩
  · rw [hen, hdr, precisionOf, hprec]; rfl
  · rw [hen, hdr, precisionOf, hprec]; rfl
  · rw [if_neg (by rcases hoff with h | h <;> simp [h])]; rfl

/-! ## The flush (43_firmware_loop R120) -/

/-- The transport's replies to the next `n` writes (20_memory R51). -/
def State.writeDraws (s : State) : Nat → List Bool
  | 0 => []
  | n + 1 => s.writeOk :: s.popWrite.writeDraws n

theorem State.length_writeDraws (s : State) (n : Nat) : (s.writeDraws n).length = n := by
  induction n generalizing s with
  | zero => rfl
  | succ n ih => exact congrArg (· + 1) (ih s.popWrite)

/-- The replies the state lists come first. -/
theorem State.writeDraws_of_listed {s : State} {oks more : List Bool} (h : s.writeReplies = oks ++ more) :
    s.writeDraws oks.length = oks := by
  induction oks generalizing s with
  | nil => rfl
  | cons ok oks ih =>
    have hok : s.writeOk = ok := by rw [State.writeOk, h]; rfl
    rw [List.length_cons, State.writeDraws, hok, ih (s := s.popWrite) (congrArg List.tail h)]

theorem State.writeDraws_setTx (s : State) (tx : List Byte) (n : Nat) : (s.setTx tx).writeDraws n = s.writeDraws n := by
  induction n generalizing s with
  | zero => rfl
  | succ n ih => exact congrArg (s.writeOk :: ·) (ih s.popWrite)

/-- One write of a frame is one frame offered. -/
theorem State.txWrite_frame (s : State) (m : Message) :
    (s.txWrite (frame m)).2 = s.popWrite.setTx (offered s.tx [(m, s.writeOk)]) := by
  rcases s.txWrite_cases (frame m) with ⟨hok, hfits, e⟩ | ⟨hno, e⟩ <;> rw [e, offered]
  · rw [if_pos ⟨hok, hfits⟩]; rfl
  · rw [if_neg (by rintro ⟨hok, hfits⟩; exact hno.elim (by simp [hok]) (Nat.not_lt.2 hfits))]; rfl

theorem offered_cons (tx : List Byte) (m : Message) (ok : Bool) (ms : List (Message × Bool)) :
    offered tx ((m, ok) :: ms) = offered (offered tx [(m, ok)]) ms := by
  simp only [offered]
  split_ifs <;> rfl

/-- Responses offered one after the other, each with the transport's reply to it. -/
theorem flush_fold_offered (ms : List Message) (s : State) :
    ms.foldl (fun t m => (t.txWrite (frame m)).2) s =
      { s with
        tx := offered s.tx (ms.zip (s.writeDraws ms.length))
        writeReplies := s.writeReplies.drop ms.length
        draws := s.draws + ms.length } := by
  induction ms generalizing s with
  | nil => rfl
  | cons m ms ih =>
    rw [List.foldl_cons, ih, State.txWrite_frame, State.writeDraws_setTx, List.length_cons, State.writeDraws,
      List.zip_cons_cons, offered_cons s.tx m s.writeOk (ms.zip _), ← List.drop_tail, Nat.add_comm ms.length 1,
      ← Nat.add_assoc]
    rfl

/-- Settles O34: the replies are those drawn, and where the state lists them, the listed ones. -/
theorem flushOffersEachResponse : Obligations.FlushOffersEachResponse := by
  refine ⟨fun s oks more hfw hp hlisted hlen => ?_, fun s hfw hp => ?_⟩
  · have hdraws : s.popTurn.writeDraws s.resp.length = oks := hlen ▸ State.writeDraws_of_listed (s := s.popTurn) hlisted
    rw [step_flush hfw hp, flushStep, flush_fold_offered, State.popTurn_resp, hdraws, State.popTurn_writeReplies, hlisted,
      ← hlen, List.drop_left]
    rfl
  · refine ⟨s.popTurn.writeDraws s.resp.length, State.length_writeDraws .., _, step_flush hfw hp, ?_, rfl, rfl⟩
    rw [flushStep, flush_fold_offered]
    rfl

/-! ## Runs (43_firmware_loop R116, R122 to R124) -/

theorem run_succ (M : Host.Core) {s t : M.State} (h : M.step s = .next t) (k : Nat) : M.run (k + 1) s = M.run k t := by
  rw [Host.Core.run, h]

theorem run_step {s t : State} (h : step s = .next t) (k : Nat) : core.run (k + 1) s = core.run k t :=
  run_succ core h k

/-- The environment's draws that stand in place: the turns, the clock's replies and the sensor's answers. -/
structure Scheduled (s : State) (turns : List Turn) (clock : List Bool) (answers : List Word) : Prop where
  turns : s.turns = turns
  clock : s.clockReplies = clock
  answers : s.answers = answers

/-- The state after a tick of the clock. -/
def State.ticked (s : State) (d : Nat) : State := s.popTurn.setNow (s.now + d)

/-- The state after a step that sent `w`, was answered `r` and went on to the phase `p`: `sentState`, with the answer
named. -/
def State.sent (s : State) (w r : Word) (p : Phase) : State := (s.popTurn.transacted w r).setPhase p

section
variable (s : State) (d : Nat)

@[simp] theorem State.ticked_now : (s.ticked d).now = s.now + d := by simp [State.ticked]
@[simp] theorem State.ticked_busLog : (s.ticked d).busLog = s.busLog := by simp [State.ticked]
@[simp] theorem State.ticked_lastTxn : (s.ticked d).lastTxn = s.lastTxn := by simp [State.ticked]

end

section
variable (s : State) (w r : Word) (p : Phase)

@[simp] theorem State.sent_now : (s.sent w r p).now = s.now := by simp [State.sent]
@[simp] theorem State.sent_phase : (s.sent w r p).phase = p := by simp [State.sent]
@[simp] theorem State.sent_lastTxn : (s.sent w r p).lastTxn = some s.now := by simp [State.sent]
@[simp] theorem State.sent_busLog :
    (s.sent w r p).busLog = s.busLog ++ [{ time := s.now, sent := w, received := r }] := by
  simp [State.sent]

end

/-- The state after a tick of the minimum interval and a step that sent `w`, was answered `r` and went on to the phase `p`. -/
def State.sentNext (s : State) (w r : Word) (p : Phase) : State := (s.ticked Config.tMin).sent w r p

section
variable (s : State) (w r : Word) (p : Phase)

@[simp] theorem State.sentNext_now : (s.sentNext w r p).now = s.now + Config.tMin := by simp [State.sentNext]
@[simp] theorem State.sentNext_phase : (s.sentNext w r p).phase = p := by simp [State.sentNext]
@[simp] theorem State.sentNext_lastTxn : (s.sentNext w r p).lastTxn = some (s.now + Config.tMin) := by
  simp [State.sentNext]
@[simp] theorem State.sentNext_busLog : (s.sentNext w r p).busLog =
    s.busLog ++ [{ time := s.now + Config.tMin, sent := w, received := r }] := by
  simp [State.sentNext]

end

/-- What the steps of a handshake or a capture, up to the last one, leave unchanged. -/
structure KeepsRest (s t : State) : Prop where
  cfg : t.cfg = s.cfg
  resp : t.resp = s.resp
  acc : t.acc = s.acc
  tx : t.tx = s.tx
  rx : t.rx = s.rx
  drPending : t.drPending = s.drPending
  rstLine : t.rstLine = s.rstLine
  writeReplies : t.writeReplies = s.writeReplies

theorem KeepsRest.trans {s t u : State} (h : KeepsRest s t) (h' : KeepsRest t u) : KeepsRest s u :=
  ⟨h'.cfg.trans h.cfg, h'.resp.trans h.resp, h'.acc.trans h.acc, h'.tx.trans h.tx, h'.rx.trans h.rx,
    h'.drPending.trans h.drPending, h'.rstLine.trans h.rstLine, h'.writeReplies.trans h.writeReplies⟩

theorem State.ticked_keepsRest (s : State) (d : Nat) : KeepsRest s (s.ticked d) := by
  constructor <;> simp [State.ticked]

theorem State.sent_keepsRest (s : State) (w r : Word) (p : Phase) : KeepsRest s (s.sent w r p) := by
  constructor <;> simp [State.sent]

theorem State.sentNext_keepsRest (s : State) (w r : Word) (p : Phase) : KeepsRest s (s.sentNext w r p) :=
  (s.ticked_keepsRest Config.tMin).trans ((s.ticked Config.tMin).sent_keepsRest w r p)

section
variable {s : State} {ts : List Turn} {cs : List Bool} {rs : List Word}

theorem Scheduled.nextTurn {m : Turn} (h : Scheduled s (m :: ts) cs rs) : s.nextTurn = m := by
  rw [State.nextTurn, h.turns]

theorem Scheduled.clockAnswers (h : Scheduled s (.fw :: ts) (true :: cs) rs) : ClockAnswers s := by
  refine ⟨h.nextTurn, ?_⟩
  rw [State.clockOk, State.popTurn_clockReplies, h.clock]

theorem Scheduled.answerTo {r : Word} (h : Scheduled s ts cs (r :: rs)) (w : Word) : answerTo s w = r := by
  rw [Machine.answerTo, State.answer, State.popClock_answers, State.popTurn_answers, h.answers]

theorem Scheduled.ticked {m : Turn} (h : Scheduled s (m :: ts) cs rs) (d : Nat) : Scheduled (s.ticked d) ts cs rs :=
  ⟨congrArg List.tail h.turns, h.clock, h.answers⟩

theorem Scheduled.sent {m : Turn} {b : Bool} {r : Word} (h : Scheduled s (m :: ts) (b :: cs) (r :: rs)) (w r' : Word)
    (p : Phase) : Scheduled (s.sent w r' p) ts cs rs :=
  ⟨congrArg List.tail h.turns, congrArg List.tail h.clock, congrArg List.tail h.answers⟩

theorem run_tick {d : Nat} (h : Scheduled s (.tick d :: ts) cs rs) (k : Nat) :
    core.run (k + 1) s = core.run k (s.ticked d) :=
  run_step (step_of_envTurn h.nextTurn nofun) k

/-- A run's step that sends a phase's word. -/
theorem run_send {p : Phase} {w r : Word} (h : Scheduled s (.fw :: ts) (true :: cs) (r :: rs)) (hp : s.phase = p)
    (hw : sentWord p = some w) (hover : IntervalOver s) (k : Nat) :
    core.run (k + 1) s = core.run k (afterXfer r (s.sent w r p)) := by
  obtain rfl := h.answerTo w
  exact run_step (step_sent ⟨h.clockAnswers, hover⟩ hp hw) k

/-- Right after a transaction, a tick of the minimum interval lets the next word go. -/
theorem run_sendNext {p : Phase} {w r : Word} (h : Scheduled s (.tick Config.tMin :: .fw :: ts) (true :: cs) (r :: rs))
    (hp : s.phase = p) (hw : sentWord p = some w) (hlast : s.lastTxn = some s.now) (k : Nat) :
    core.run (k + 2) s = core.run k (afterXfer r (s.sentNext w r p)) :=
  (run_tick h (k + 1)).trans (run_send (h.ticked Config.tMin) hp hw (.inr ⟨s.now, hlast, le_rfl⟩) k)

end

/-! ## A whole handshake (43_firmware_loop R116) -/

section
variable (s : State) (f : ConfigField) (cand : FwConfig) (rem : List Byte)

/-- The state after a settle delay that a tick of the clock ends. -/
def State.settled (d : Nat) : State := (s.ticked d).popTurn.popClock.setPhase (.cfgR1 f cand rem)

@[simp] theorem State.settled_phase (d : Nat) : (s.settled f cand rem d).phase = .cfgR1 f cand rem := by
  simp [State.settled]
@[simp] theorem State.settled_now (d : Nat) : (s.settled f cand rem d).now = s.now + d := by simp [State.settled]
@[simp] theorem State.settled_lastTxn (d : Nat) : (s.settled f cand rem d).lastTxn = s.lastTxn := by simp [State.settled]
@[simp] theorem State.settled_busLog (d : Nat) : (s.settled f cand rem d).busLog = s.busLog := by simp [State.settled]
theorem State.settled_keepsRest (d : Nat) : KeepsRest s (s.settled f cand rem d) := by
  constructor <;> simp [State.settled, State.ticked]

variable (r r' : Word)

/-- The state after the two write words of a handshake, answered `r` and `r'`. -/
def State.written : State :=
  (s.sent (writeLo Config.mscCtrlAddr (mscEncode cand.mscCtrl)) r (.cfgW2 f cand rem)).sentNext
    (writeHi Config.mscCtrlAddr (mscEncode cand.mscCtrl)) r' (.cfgSettle f cand (s.now + Config.tMin) rem)

@[simp] theorem State.written_phase :
    (s.written f cand rem r r').phase = .cfgSettle f cand (s.now + Config.tMin) rem := by simp [State.written]
@[simp] theorem State.written_now : (s.written f cand rem r r').now = s.now + Config.tMin := by simp [State.written]
@[simp] theorem State.written_lastTxn : (s.written f cand rem r r').lastTxn = some (s.now + Config.tMin) := by
  simp [State.written]
theorem State.written_keepsRest : KeepsRest s (s.written f cand rem r r') :=
  (s.sent_keepsRest ..).trans (State.sentNext_keepsRest ..)

/-- The state after the read request and FILL, answered `r` and `r'`; what FILL's answer decides is still to come. -/
def State.readBack : State :=
  (s.sent (request Config.mscCtrlAddr) r (.cfgR2 f cand rem)).sentNext Config.fill r' (.cfgR2 f cand rem)

theorem State.readBack_keepsRest : KeepsRest s (s.readBack f cand rem r r') :=
  (s.sent_keepsRest ..).trans (State.sentNext_keepsRest ..)

end

section
variable {s : State} {f : ConfigField} {cand : FwConfig} {rem : List Byte} {ts : List Turn} {cs : List Bool}
  {rs : List Word} {r r' : Word}

theorem run_written (h : Scheduled s (.fw :: .tick Config.tMin :: .fw :: ts) (true :: true :: cs) (r :: r' :: rs))
    (hp : s.phase = .cfgW1 f cand rem) (hover : IntervalOver s) (k : Nat) :
    core.run (k + 3) s = core.run k (s.written f cand rem r r') ∧ Scheduled (s.written f cand rem r r') ts cs rs := by
  have hlo := h.sent (writeLo Config.mscCtrlAddr (mscEncode cand.mscCtrl)) r (.cfgW2 f cand rem)
  exact ⟨(run_send h hp rfl hover (k + 2)).trans (run_sendNext hlo (State.sent_phase ..) rfl (State.sent_lastTxn ..) k),
    (hlo.ticked _).sent ..⟩

theorem run_settled {t0 d : Nat} (h : Scheduled s (.tick d :: .fw :: ts) (true :: cs) rs)
    (hp : s.phase = .cfgSettle f cand t0 rem) (hover : t0 + Config.tSettle ≤ s.now + d) (k : Nat) :
    core.run (k + 2) s = core.run k (s.settled f cand rem d) ∧ Scheduled (s.settled f cand rem d) ts cs rs := by
  have htick := h.ticked d
  have hstep : step (s.ticked d) = .next (s.settled f cand rem d) :=
    (step_cfgSettle htick.nextTurn hp).trans
      (congrArg _ (settleStep_of_over (s := (s.ticked d).popTurn) htick.clockAnswers.2 hover f cand rem))
  exact ⟨(run_tick h (k + 1)).trans (run_step hstep k), congrArg List.tail htick.turns, congrArg List.tail htick.clock,
    htick.answers⟩

theorem run_readBack (h : Scheduled s (.fw :: .tick Config.tMin :: .fw :: ts) (true :: true :: cs) (r :: r' :: rs))
    (hp : s.phase = .cfgR1 f cand rem) (hover : IntervalOver s) (k : Nat) :
    core.run (k + 3) s = core.run k (finishHandshake f cand rem r' (s.readBack f cand rem r r')) := by
  have hrequest := h.sent (request Config.mscCtrlAddr) r (.cfgR2 f cand rem)
  exact (run_send h hp rfl hover (k + 2)).trans
    (run_sendNext hrequest (State.sent_phase ..) rfl (State.sent_lastTxn ..) k)

end

/-- The state after a whole handshake, but for what its last answer decides. -/
def State.handshaken (s : State) (f : ConfigField) (cand : FwConfig) (rem : List Byte) (r1 r2 r3 r4 : Word) : State :=
  ((s.written f cand rem r1 r2).settled f cand rem (max Config.tSettle Config.tMin)).readBack f cand rem r3 r4

section
variable (s : State) (f : ConfigField) (cand : FwConfig) (rem : List Byte) (r1 r2 r3 r4 : Word)

theorem State.handshaken_busLog : (s.handshaken f cand rem r1 r2 r3 r4).busLog = s.busLog ++
    [{ time := s.now, sent := writeLo Config.mscCtrlAddr (mscEncode cand.mscCtrl), received := r1 },
     { time := s.now + Config.tMin, sent := writeHi Config.mscCtrlAddr (mscEncode cand.mscCtrl), received := r2 },
     { time := s.now + Config.tMin + max Config.tSettle Config.tMin, sent := request Config.mscCtrlAddr, received := r3 },
     { time := s.now + Config.tMin + max Config.tSettle Config.tMin + Config.tMin, sent := Config.fill,
       received := r4 }] := by
  simp [State.handshaken, State.readBack, State.written]

theorem State.handshaken_keepsRest : KeepsRest s (s.handshaken f cand rem r1 r2 r3 r4) :=
  (s.written_keepsRest ..).trans ((State.settled_keepsRest ..).trans (State.readBack_keepsRest ..))

end

/-- Settles O45: the two write words, the settle delay and the read-back, one after the other. -/
theorem handshakeRuns : Obligations.HandshakeRuns := by
  intro s f cand rem r1 r2 r3 r4 hp hover hturns hclock hans
  obtain ⟨hwrite, hs1⟩ := run_written ⟨hturns, hclock, hans⟩ hp hover 5
  obtain ⟨hsettle, hs2⟩ := run_settled hs1 (State.written_phase ..) (d := max Config.tSettle Config.tMin) (by simp) 3
  have hread := run_readBack hs2 (State.settled_phase ..) (.inr ⟨s.now + Config.tMin, by simp⟩) 0
  have hrun := hwrite.trans (hsettle.trans hread)
  have hlog := s.handshaken_busLog f cand rem r1 r2 r3 r4
  have hrest := s.handshaken_keepsRest f cand rem r1 r2 r3 r4
  refine ⟨_, hrun, ?_⟩
  rw [← State.handshaken]
  by_cases hr : mscDecode r4 = cand.mscCtrl
  · rw [finishHandshake_commit hr]
    exact ⟨hlog, rfl, fun _ => ⟨rfl, congrArg (· ++ [Message.cfg f]) hrest.resp⟩, fun h => absurd hr h,
      hrest.acc, hrest.tx, hrest.rx, hrest.drPending, hrest.rstLine⟩
  · rw [finishHandshake_drop hr]
    exact ⟨hlog, rfl, fun h => absurd h hr, fun _ => ⟨hrest.cfg, hrest.resp⟩,
      hrest.acc, hrest.tx, hrest.rx, hrest.drPending, hrest.rstLine⟩

/-! ## A whole capture (43_firmware_loop R122 to R124) -/

theorem captureEvents_sent (t : Nat) (rs : List Word) :
    (captureEvents t rs).map (·.sent) = List.replicate rs.length Config.fill := by
  induction rs generalizing t with
  | nil => rfl
  | cons r rs ih => exact congrArg (Config.fill :: ·) (ih _)

/-- The turns of a capture's words: a tick of the minimum interval and a step for each. -/
abbrev wordTurns (rs : List Word) : List Turn := rs.flatMap fun _ => [.tick Config.tMin, .fw]

/-- A capture that has taken the words `ws`, its last transaction just made. -/
structure AtWord (s : State) (p : Precision) (sel : BurstSel) (ws : List Word) : Prop where
  phase : s.phase = .burstWord p sel ws
  lastTxn : s.lastTxn = some s.now

/-- What a capture leaves: the words `rs` on the bus and the frame of `ws` and `rs` in `tx`. -/
structure Captured (s t : State) (p : Precision) (sel : BurstSel) (ws rs : List Word) : Prop where
  busLog : t.busLog = s.busLog ++ captureEvents s.now rs
  tx : t.tx = s.tx ++ frame (burstMessage p sel (ws ++ rs))
  drPending : t.drPending = false
  phase : t.phase = .top
  cfg : t.cfg = s.cfg
  acc : t.acc = s.acc
  rx : t.rx = s.rx
  resp : t.resp = s.resp
  rstLine : t.rstLine = s.rstLine

/-- The emit of a frame that the transport takes and that fits (43_firmware_loop R124). -/
theorem emitBurst_of_fits {s : State} {p : Precision} {sel : BurstSel} {ws : List Word} (hok : s.writeOk = true)
    (hfits : s.tx.length + (frame (burstMessage p sel ws)).length ≤ Config.txCap) :
    emitBurst p sel ws s = ((s.popWrite.setTx (s.tx ++ frame (burstMessage p sel ws))).clearEdge).setPhase .top := by
  rw [emitBurst, State.txWrite_fits hok hfits]

section
variable {s : State} {p : Precision} {sel : BurstSel} {ws rs : List Word} {ts : List Turn} {cs : List Bool} {r : Word}

/-- The last word's frame leaves in the same step. -/
theorem captured_last (hok : s.writeReplies = [true])
    (hfits : s.tx.length + (frame (burstMessage p sel (ws ++ [r]))).length ≤ Config.txCap) (q : Phase) :
    Captured s (emitBurst p sel (ws ++ [r]) (s.sentNext Config.fill r q)) p sel ws [r] := by
  have h := s.sentNext_keepsRest Config.fill r q
  have htaken : (s.sentNext Config.fill r q).writeOk = true := by rw [State.writeOk, h.writeReplies, hok]
  rw [emitBurst_of_fits htaken (by rwa [h.tx])]
  constructor
  case busLog => simp [captureEvents, Config.fill]
  all_goals simp [h.cfg, h.acc, h.rx, h.resp, h.rstLine, h.tx]

/-- A word taken before the rest of a capture is one more word of it. -/
theorem Captured.cons {t : State} {q : Phase} (h : Captured (s.sentNext Config.fill r q) t p sel (ws ++ [r]) rs) :
    Captured s t p sel ws (r :: rs) := by
  have hs := s.sentNext_keepsRest Config.fill r q
  exact ⟨by rw [h.busLog, s.sentNext_busLog, s.sentNext_now, List.append_assoc]; rfl,
    by rw [h.tx, hs.tx, List.append_assoc]; rfl,
    h.drPending, h.phase, h.cfg.trans hs.cfg, h.acc.trans hs.acc, h.rx.trans hs.rx, h.resp.trans hs.resp,
    h.rstLine.trans hs.rstLine⟩

/-- The rest of a capture, word by word. -/
theorem run_words (h : AtWord s p sel ws) (hlen : ws.length + rs.length = frameWords p) (hne : rs ≠ [])
    (hs : Scheduled s (wordTurns rs) (List.replicate rs.length true) rs) (hok : s.writeReplies = [true])
    (hfits : s.tx.length + (frame (burstMessage p sel (ws ++ rs))).length ≤ Config.txCap) :
    ∃ t, core.run (2 * rs.length) s = .next t ∧ Captured s t p sel ws rs := by
  induction rs generalizing s ws with
  | nil => exact absurd rfl hne
  | cons r rs ih =>
    have hrun : core.run (2 * rs.length + 2) s =
        core.run (2 * rs.length) (takeBurstWord p sel ws r (s.sentNext Config.fill r (.burstWord p sel ws))) :=
      run_sendNext hs h.phase rfl h.lastTxn _
    by_cases hlast : rs = []
    · subst hlast
      rw [takeBurstWord_last hlen] at hrun
      exact ⟨_, hrun, captured_last hok hfits _⟩
    · have hmore : ws.length + 1 ≠ frameWords p := by
        have hpos := List.length_pos_of_ne_nil hlast
        rw [List.length_cons] at hlen
        omega
      rw [takeBurstWord_more hmore] at hrun
      have hrest := s.sentNext_keepsRest Config.fill r (.burstWord p sel (ws ++ [r]))
      obtain ⟨t, hrun', hcap⟩ := ih (s := s.sentNext Config.fill r (.burstWord p sel (ws ++ [r])))
        ⟨s.sentNext_phase .., by simp⟩
        (by rw [List.length_append, List.length_singleton, ← hlen, List.length_cons]; omega) hlast
        ((hs.ticked _).sent ..) (hrest.writeReplies.trans hok) (by simpa [hrest.tx] using hfits)
      exact ⟨t, hrun.trans hrun', hcap.cons⟩

end

/-- Settles O46: the command, then the words of the frame. -/
theorem captureRuns : Obligations.CaptureRuns := by
  intro s p sel r0 rs hp hover hlen hturns hclock hans hok hfits
  have hs : Scheduled s (.fw :: wordTurns rs) (true :: List.replicate rs.length true) (r0 :: rs) :=
    ⟨hturns, by rw [hclock, hlen]; rfl, hans⟩
  have hne : rs ≠ [] := by
    rintro rfl
    cases p <;> cases hlen
  have hrest := s.sent_keepsRest Config.burstCmd r0 (.burstWord p sel [])
  obtain ⟨t, hrun, hcap⟩ := run_words (s := s.sent Config.burstCmd r0 (.burstWord p sel [])) (ws := [])
    ⟨s.sent_phase .., by simp⟩ (by simpa using hlen) hne (hs.sent ..) (hrest.writeReplies.trans hok) (by rwa [hrest.tx])
  have hlog : t.busLog = s.busLog ++ ⟨s.now, Config.burstCmd, r0⟩ :: captureEvents s.now rs := by
    rw [hcap.busLog, State.sent_busLog, State.sent_now, List.append_assoc]
    rfl
  refine ⟨t, ?_, hlog, ?_, by rw [hcap.tx, hrest.tx]; rfl, hcap.drPending, hcap.phase, hcap.cfg.trans hrest.cfg,
    hcap.acc.trans hrest.acc, hcap.rx.trans hrest.rx, hcap.resp.trans hrest.resp, hcap.rstLine.trans hrest.rstLine⟩
  · rw [Nat.add_comm, ← hlen]
    exact (run_send hs hp rfl hover _).trans hrun
  · rw [hlog, List.map_append, List.map_cons, captureEvents_sent, hlen]
    rfl

end Sys2Proof.Machine
end

section
/-! The statements of 60_exceptions: what raises the fault and what that step changes, and what writes the data-ready latch. -/

namespace Sys2Proof.Machine

/-! ## The fault (60_exceptions R131, 43_firmware_loop R113, R118) -/

/-- The fault is raised at a failed clock query: beside the clock's draw only the phase changes (60_exceptions R131). -/
def FaultsAtClock (s t : State) : Prop := s.clockOk = false ∧ t = s.popClock.raiseFault .clockError

/-- A step that may be held leaves the loop running when its effect does, unless its clock query fails. -/
theorem withClock_held_fault_cases {ready : State → Bool} {k : State → State} {s : State} (hs : s.phase.isFault = false)
    (hk : (k s.popClock).phase.isFault = false) :
    (withClock (fun s => if ready s then k s else s) s).phase.isFault = false ∨
    FaultsAtClock s (withClock (fun s => if ready s then k s else s) s) := by
  rcases withClock_cases (fun s => if ready s then k s else s) s with ⟨-, e⟩ | hfails
  · left
    rw [e]
    split
    · exact hk
    · exact hs
  · exact .inr hfails

theorem BusAdvance.isFault {now : Nat} {r : Word} {p q : Phase} (h : BusAdvance now r p q) : q.isFault = false := by
  cases h <;> rfl

/-- A transaction leads a phase that sends a word to a phase of the running loop. -/
theorem transact_isFault {s : State} {w : Word} (hw : sentWord s.phase = some w) :
    (transact w s).phase.isFault = false := by
  rw [transact]
  rcases afterXfer_cases (s := s.popAnswer.logTxn w (s.answer w)) hw (s.answer w) with
    ⟨p, hadv, e⟩ | ⟨f, cand, rem, -, -, e⟩ | ⟨v, rem, -, e⟩ | ⟨p, sel, ws, -, -, e⟩ <;> rw [e]
  · exact hadv.isFault
  all_goals rfl

theorem xfer_fault_cases {s : State} {w : Word} (hw : sentWord s.phase = some w) :
    (xfer w s).phase.isFault = false ∨ FaultsAtClock s (xfer w s) :=
  withClock_held_fault_cases (ready := fun s => intervalOver Config.tMin s.lastTxn s.now) (isFault_of_sentWord hw)
    (transact_isFault (s := s.popClock) hw)

theorem settleStep_fault_cases {s : State} (hs : s.phase.isFault = false) (f : ConfigField) (cand : FwConfig) (t0 : Nat)
    (rem : List Byte) :
    (settleStep f cand t0 rem s).phase.isFault = false ∨ FaultsAtClock s (settleStep f cand t0 rem s) :=
  withClock_held_fault_cases (ready := fun s => elapsed Config.tSettle t0 s.now)
    (k := fun s => s.setPhase (.cfgR1 f cand rem)) hs rfl

theorem resetStep_fault_cases {s : State} (hs : s.phase.isFault = false) (t0 : Nat) (rem : List Byte) :
    (resetStep t0 rem s).phase.isFault = false ∨ FaultsAtClock s (resetStep t0 rem s) :=
  withClock_held_fault_cases (ready := fun s => elapsed Config.tRst t0 s.now)
    (k := fun s => (((s.setReset .high).setCfg FwConfig.default).pushResp .rst).setPhase (.feed rem)) hs rfl

/-- The dispatch of RST whose clock query answers raises no fault either (43_firmware_loop R118). -/
theorem dispatched_isFault_of_ok {m : Message} {s : State} (h : m ≠ .rst ∨ s.clockOk = true) :
    (dispatched m s).phase.isFault = false := by
  by_cases hm : m = .rst
  · subst hm
    rw [dispatched, startReset_of_ok (h.resolve_left (absurd rfl))]
    rfl
  · exact dispatched_isFault hm s

theorem queriesClock_of_sentWord {p : Phase} {w : Word} (h : sentWord p = some w) : queriesClock p = true := by
  cases p with
  | top => cases h
  | flush => cases h
  | burstCheck => cases h
  | fault => cases h
  | _ => rfl

/-- A step of the running loop leaves it running, or raises the fault at a failed clock query of the phase, which in `Feed` is
that of RST's dispatch. -/
theorem LoopStep.fault_cases {s t : State} (h : LoopStep s t) (hs : s.phase.isFault = false) :
    t.phase.isFault = false ∨
    (FaultsAtClock s t ∧ queriesClock s.phase = true ∧
      ∀ rem, s.phase = .feed rem → ∃ rest a, s.acc.feed rem = (.success .rst rest, a)) := by
  cases h with
  | feedMessage _ _ _ _ _ _ _ hok => exact .inl (dispatched_isFault_of_ok hok)
  | feedFault rem rest a hp _ hf hc =>
    refine .inr ⟨⟨hc, rfl⟩, by rw [hp]; rfl, fun rem' hp' => ⟨rest, a, ?_⟩⟩
    cases hp.symm.trans hp'
    exact hf
  | send w hw =>
    exact (xfer_fault_cases hw).imp id fun hfault =>
      ⟨hfault, queriesClock_of_sentWord hw, fun rem hp => by rw [hp] at hw; cases hw⟩
  | settle f cand t0 rem hp =>
    exact (settleStep_fault_cases hs f cand t0 rem).imp id fun hfault => ⟨hfault, by rw [hp]; rfl, by simp [hp]⟩
  | reset t0 rem hp =>
    exact (resetStep_fault_cases hs t0 rem).imp id fun hfault => ⟨hfault, by rw [hp]; rfl, by simp [hp]⟩
  | burstCheck =>
    left
    unfold burstCheckStep
    split <;> rfl
  | fault kind hp => rw [hp] at hs; cases hs
  | _ => exact .inl rfl

/-- Settles O48: no move of the environment leaves the running loop, and a step of the loop does so only at a failed clock
query. -/
theorem clockFaultChangesOnlyThePhase : Obligations.ClockFaultChangesOnlyThePhase := by
  intro s t k hstep hs ht
  rcases step_cases hstep with ⟨hfw, h⟩ | ⟨-, rfl⟩
  · rcases h.fault_cases hs with hrunning | ⟨⟨hc, rfl⟩, hquery, hrst⟩
    · rw [ht] at hrunning; cases hrunning
    · cases ht
      exact ⟨rfl, ⟨hfw, hc⟩, hquery, hrst, rfl, rfl, rfl, rfl, rfl, rfl, rfl, rfl, rfl, rfl, rfl⟩
  · have hphase : s.phase = .fault k := by rwa [envMove_phase] at ht
    rw [hphase] at hs; cases hs

/-! ## The data-ready latch (60_exceptions R133, 10_state R29) -/

theorem dispatched_drPending (m : Message) (s : State) : (dispatched m s).drPending = s.drPending := by
  rcases dispatched_cases m s with ⟨v, -, e⟩ | ⟨-, -, e⟩ | ⟨-, -, e⟩ | e | ⟨p, e⟩ <;> rw [e] <;> rfl

/-- Of the loop's steps only the last word of a capture writes the latch, and it clears it (43_firmware_loop R124). -/
theorem LoopStep.drPending_cases {s t : State} (h : LoopStep s t) :
    t.drPending = s.drPending ∨
    (t.drPending = false ∧
      ∃ p sel ws, s.phase = .burstWord p sel ws ∧ ws.length + 1 = frameWords p ∧ t.phase = .top) := by
  cases h with
  | feedMessage => exact .inl (dispatched_drPending ..)
  | send w hw =>
    rcases xfer_cases_of_sentWord hw with
      ⟨p, e⟩ | ⟨r, ⟨p, e⟩ | ⟨f, cand, rem, -, e⟩ | ⟨v, rem, -, e⟩ | ⟨p, sel, ws, hp, hl, e⟩⟩ <;> rw [e]
    case inr.inr.inr.inr => exact .inr ⟨rfl, p, sel, ws, hp, hl, rfl⟩
    all_goals exact .inl rfl
  | settle f cand t0 rem =>
    obtain ⟨p, e⟩ := settleStep_eq_setPhase f cand t0 rem s
    exact .inl (by rw [e]; rfl)
  | reset t0 rem =>
    rcases resetStep_cases t0 rem s with ⟨p, e⟩ | ⟨-, e⟩ <;> rw [e] <;> exact .inl rfl
  | flush =>
    obtain ⟨tx, wr, n, e⟩ := flush_fold s.resp s
    exact .inl (by rw [flushStep, e]; rfl)
  | burstCheck =>
    obtain ⟨p, e⟩ := burstCheckStep_eq_setPhase s
    exact .inl (by rw [e]; rfl)
  | _ => exact .inl rfl

theorem envMove_drPending_cases (m : Turn) (s : State) :
    (m = .drEdge ∧ (envMove m s).drPending = true) ∨ (envMove m s).drPending = s.drPending := by
  cases m with
  | drEdge => exact .inl ⟨rfl, rfl⟩
  | _ => exact .inr rfl

/-- A step keeps the latch, sets it at the edge, or clears it at the last word of a capture. -/
theorem step_drPending_cases {s t : State} (h : step s = .next t) :
    t.drPending = s.drPending ∨ (s.nextTurn = .drEdge ∧ t.drPending = true) ∨
    (t.drPending = false ∧
      ∃ p sel ws, s.phase = .burstWord p sel ws ∧ ws.length + 1 = frameWords p ∧ t.phase = .top) := by
  rcases step_cases h with ⟨-, hloop⟩ | ⟨-, rfl⟩
  · exact hloop.drPending_cases.imp id .inr
  · exact (envMove_drPending_cases s.nextTurn s.popTurn).symm.imp id .inl

/-- Settles O52: a step that changes the latch is the edge when it sets it, and the last word of a capture when it clears it. -/
theorem dataReadyLatchWriters : Obligations.DataReadyLatchWriters := by
  intro s t hstep
  rcases step_drPending_cases hstep with hsame | ⟨hedge, hset⟩ | ⟨hclear, hlast⟩
  · simp +contextual [hsame]
  · simp [hedge, hset]
  · exact ⟨by simp [hclear], fun _ _ => hlast⟩

end Sys2Proof.Machine
end

section
/-! The statements of 70_reset_and_hazards: the machine never stops, the minimum interval and the settle delay, the outbound
arithmetic, and the holds that end in a fair run. -/

namespace Sys2Proof.Machine

/-! ## The machine never stops (70_reset_and_hazards R148) -/

theorem feedStep_next (rem : List Byte) (s : State) : ∃ t, feedStep rem s = .next t := by
  unfold feedStep
  split
  · exact ⟨_, rfl⟩
  · split
    case h_2 m rest a _ =>
      rcases dispatchMessage_cases s.acc m (s := (s.setAcc a).setPhase (.feed rest)) rfl with ⟨-, e, e'⟩ | ⟨-, -, e⟩
      · exact ⟨_, e.trans e'⟩
      · exact ⟨_, e⟩
    all_goals exact ⟨_, rfl⟩

theorem fwStep_next (s : State) : ∃ t, fwStep s = .next t := by
  cases hw : sentWord s.phase with
  | some w => exact ⟨_, fwStep_of_sentWord hw⟩
  | none =>
    unfold fwStep
    cases hp : s.phase <;> rw [hp] at hw <;> simp only [sentWord, reduceCtorEq] at hw
    case feed rem => exact feedStep_next rem s
    all_goals exact ⟨_, rfl⟩

/-- Settles O27: the loop's step has a next state in every phase, and so has every move of the environment. -/
theorem stepAlwaysAnswersNext : Obligations.StepAlwaysAnswersNext := by
  intro s
  by_cases hfw : s.nextTurn = .fw
  · rw [step_fw hfw]
    exact fwStep_next s.popTurn
  · exact ⟨_, step_env hfw⟩

/-! ## The minimum interval (70_reset_and_hazards R149) -/

/-- What one step does to the bus history: nothing, or the transaction of the word its phase sends, at least the minimum
interval after the last one. -/
theorem step_transaction_cases {s t : State} (h : step s = .next t) :
    (t.busLog = s.busLog ∧ t.lastTxn = s.lastTxn) ∨
    (∃ w r, sentWord s.phase = some w ∧ t.busLog = s.busLog ++ [{ time := s.now, sent := w, received := r }] ∧
      t.lastTxn = some s.now ∧ ∀ t0, s.lastTxn = some t0 → t0 + Config.tMin ≤ s.now) := by
  rcases step_cases h with ⟨-, hloop⟩ | ⟨-, rfl⟩
  · cases hloop with
    | send w hw =>
      rcases xfer_cases w s.popTurn with ⟨-, e⟩ | ⟨-, -, e⟩ | ⟨-, hover, e⟩ <;> rw [e]
      · exact .inl ⟨rfl, rfl⟩
      · exact .inl ⟨rfl, rfl⟩
      · exact .inr ⟨w, _, hw, transact_busLog w s.popTurn.popClock, transact_lastTxn w s.popTurn.popClock,
          intervalOver_iff.1 hover⟩
    | _ => left; simp
  · exact .inl ⟨by rw [envMove_busLog, State.popTurn_busLog], by rw [envMove_lastTxn, State.popTurn_lastTxn]⟩

theorem step_busLog_prefix {s t : State} (h : step s = .next t) : s.busLog <+: t.busLog := by
  rcases step_transaction_cases h with ⟨hlog, -⟩ | ⟨w, r, -, hlog, -⟩ <;> rw [hlog]
  exact List.prefix_append ..

/-- A run keeps the invariant and only adds to the bus history. -/
theorem run_keeps {s t : State} {n : Nat} (hinv : s.Inv) (h : core.run n s = .next t) :
    t.Inv ∧ s.busLog <+: t.busLog := by
  induction n generalizing s with
  | zero =>
    cases h
    exact ⟨hinv, List.prefix_rfl⟩
  | succ n ih =>
    obtain ⟨u, hstep⟩ := stepAlwaysAnswersNext s
    obtain ⟨ht, hpre⟩ := ih (stepKeepsInvariant s u hinv hstep) ((run_step hstep n).symm.trans h)
    exact ⟨ht, (step_busLog_prefix hstep).trans hpre⟩

/-- Settles O54: each step makes one spaced transaction at most, and the invariant, which every run keeps, says that the whole
history is spaced. -/
theorem busTransactionsAreSpaced : Obligations.BusTransactionsAreSpaced := by
  refine ⟨fun s t => step_transaction_cases, fun s t n hinv hrun => ?_⟩
  obtain ⟨ht, hpre⟩ := run_keeps hinv hrun
  exact ⟨hpre, ht.spaced.isChain⟩

/-! ## The settle delay (70_reset_and_hazards R150) -/

/-- The last entry of the history is the last transaction. -/
theorem State.Inv.lastTxn_eq {s : State} (h : s.Inv) {pre : List BusEvent} {e : BusEvent} (hlog : s.busLog = pre ++ [e]) :
    s.lastTxn = some e.time := by
  rw [h.lastLogged, hlog, List.getLast?_concat]
  rfl

/-- Settles O55: the invariant of the read request's phase says when the second write word was sent, and the transaction itself
waits for the minimum interval; RQR's words go as soon as that is over. -/
theorem settleBeforeReadBack : Obligations.SettleBeforeReadBack := by
  refine ⟨fun s t f cand rem hinv hp hstep hne => ?readBack, fun s v rem hready hp => ?rqr⟩
  case readBack =>
    rcases step_transaction_cases hstep with ⟨hsame, -⟩ | ⟨w, r, hw, hlog, -, hover⟩
    · exact absurd hsame hne
    · rw [hp] at hw
      cases hw
      have hok := hinv.phaseOk
      rw [PhaseOk, hp] at hok
      obtain ⟨-, t0, ⟨pre, e, hpast, hwrote, rfl⟩, hsettled⟩ := hok
      refine ⟨pre, e, _, by rw [hlog, hpast, List.append_assoc]; rfl, hwrote, rfl, ?_⟩
      rw [← Nat.add_max_add_left]
      exact max_le hsettled (hover _ (hinv.lastTxn_eq hpast))
  case rqr =>
    obtain ⟨w, hw⟩ : ∃ w, sentWord s.phase = some w := by rcases hp with hp | hp <;> rw [hp] <;> exact ⟨_, rfl⟩
    refine ⟨_, step_of_ready hready hw, ?_⟩
    rw [transact_busLog]
    simp

/-! ## The outbound arithmetic (70_reset_and_hazards R157, 20_memory R51) -/

theorem length_frame_b16 (sel : BurstSel) {ws : List Word} (h : ws.length = 10) : (frame (.b16 sel ws)).length = 25 :=
  length_frame (length_serialize_b16 sel h) (by decide)

theorem length_frame_b32 (sel : BurstSel) {ws : List Word} (h : ws.length = 16) : (frame (.b32 sel ws)).length = 37 :=
  length_frame (length_serialize_b32 sel h) (by decide)

/-- A write that answers true appends all its bytes, and one that answers false leaves `tx` as it is. -/
theorem State.txWrite_tx (s : State) (bs : List Byte) :
    (s.txWrite bs).2.tx = if (s.txWrite bs).1 then s.tx ++ bs else s.tx := by
  unfold State.txWrite
  split <;> rfl

/-- Settles O60: a B32 frame has 37 bytes and a B16 frame 25; a write's result and effect are those of `txWrite`. -/
theorem outboundOverflow : Obligations.OutboundOverflow := by
  refine ⟨fun sel sel' ws ws' h h' => ?_, fun sel sel' ws ws' h h' => ⟨?_, ?_⟩,
    fun s bs => ⟨s.txWrite_result bs, fun h => ?_, fun h => ?_⟩⟩
  · rw [txFits, length_frame_b32 sel h, length_frame_b32 sel' h']; rfl
  · rw [txFits, length_frame_b32 sel h, length_frame_b16 sel' h']; rfl
  · rw [List.length_append, length_frame_b32 sel h, length_frame_b16 sel' h']
  · rw [s.txWrite_tx, h]; rfl
  · rw [s.txWrite_tx, h]; rfl

/-! ## Holds end: one step of the loop (70_reset_and_hazards R147) -/

theorem fwEnabled_iff_of_sentWord {s : State} {w : Word} (hw : sentWord s.phase = some w) :
    FwEnabled s ↔ IntervalOver s := by
  unfold FwEnabled
  generalize s.phase = p at hw ⊢
  cases p
  case top | feed | cfgSettle | rstLow | flush | burstCheck | fault => cases hw
  all_goals rfl

/-- A step whose clock query did not raise the fault had its query answered. -/
theorem clockOk_of_running {k : State → State} {s : State} (h : (withClock k s).phase.isFault = false) :
    s.clockOk = true := by
  rcases withClock_cases k s with ⟨hc, -⟩ | ⟨-, e⟩
  · exact hc
  · rw [e] at h; cases h

/-- The loop waits from `s` to `t`: what its next step depends on, beside the clock and the environment, is the same. -/
structure Waits (s t : State) : Prop where
  phase : t.phase = s.phase
  lastTxn : t.lastTxn = s.lastTxn
  acc : t.acc = s.acc

theorem Waits.refl (s : State) : Waits s s := ⟨rfl, rfl, rfl⟩

theorem Waits.trans {s t u : State} (h : Waits s t) (h' : Waits t u) : Waits s u :=
  ⟨h'.phase.trans h.phase, h'.lastTxn.trans h.lastTxn, h'.acc.trans h.acc⟩

/-- While the loop waits, its step is enabled from some time on. -/
theorem exists_enabled_from {s : State} (hs : s.phase.isFault = false) :
    ∃ t0, ∀ t, Waits s t → t0 ≤ t.now → FwEnabled t := by
  cases hw : sentWord s.phase with
  | some w =>
    refine ⟨s.lastTxn.elim 0 (· + Config.tMin), fun t ht hnow => ?_⟩
    rw [fwEnabled_iff_of_sentWord (w := w) (by rw [ht.phase, hw]), IntervalOver, ht.lastTxn]
    cases hlast : s.lastTxn with
    | none => exact .inl rfl
    | some t1 => exact .inr ⟨t1, rfl, by rwa [hlast] at hnow⟩
  | none =>
    cases hp : s.phase <;> rw [hp] at hw hs <;> simp only [sentWord, reduceCtorEq] at hw
    case cfgSettle f cand t1 rem =>
      exact ⟨t1 + Config.tSettle, fun t ht hnow => by rwa [FwEnabled, ht.phase, hp]⟩
    case rstLow t1 rem => exact ⟨t1 + Config.tRst, fun t ht hnow => by rwa [FwEnabled, ht.phase, hp]⟩
    case fault kind => cases hs
    all_goals exact ⟨0, fun t ht _ => by simp only [FwEnabled, ht.phase, hp]⟩

/-- A step of the loop that is not enabled is a hold. -/
theorem LoopStep.waits {s t : State} (h : LoopStep s t) (ht : t.phase.isFault = false) (hheld : ¬FwEnabled s) :
    Waits s t := by
  cases h with
  | send w hw =>
    rw [xfer_of_held (clockOk_of_running ht) (mt (fwEnabled_iff_of_sentWord hw).2 hheld)]
    exact ⟨rfl, rfl, rfl⟩
  | settle f cand t0 rem hp =>
    rw [FwEnabled, hp] at hheld
    rw [settleStep_of_held (clockOk_of_running ht) (not_le.1 hheld)]
    exact ⟨rfl, rfl, rfl⟩
  | reset t0 rem hp =>
    rw [FwEnabled, hp] at hheld
    rw [resetStep_of_held (clockOk_of_running ht) (not_le.1 hheld)]
    exact ⟨rfl, rfl, rfl⟩
  | fault => exact .refl s
  | _ => exact absurd (by simp [FwEnabled, *]) hheld

/-- An enabled step leaves `Top` and every phase that may be held. -/
theorem LoopStep.leaves {s t : State} (h : LoopStep s t) (ht : t.phase.isFault = false) (hen : FwEnabled s)
    (hs : mayBeHeld s.phase = true ∨ s.phase = .top) : t.phase ≠ s.phase := by
  cases h with
  | send w hw =>
    rw [xfer_of_ready (clockOk_of_running ht) ((fwEnabled_iff_of_sentWord hw).1 hen)]
    exact transact_phase_ne (s := s.popClock) hw
  | settle f cand t0 rem hp =>
    rw [FwEnabled, hp] at hen
    rw [settleStep_of_over (clockOk_of_running ht) hen, hp]
    exact nofun
  | reset t0 rem hp =>
    rw [FwEnabled, hp] at hen
    rw [resetStep_of_over (clockOk_of_running ht) hen, hp]
    exact nofun
  | topFlush hp _ => rw [hp]; exact nofun
  | topRead hp _ _ => rw [hp]; exact nofun
  | topFail hp _ _ => rw [hp]; exact nofun
  | _ => exact absurd hs (by simp [mayBeHeld, *])

/-! ## The way back to Top (43_firmware_loop R112 to R124)

Between two visits to `Top` the loop feeds a chunk, and each FEED leaves fewer FEEDs to come (42_framing R108). Between two FEEDs,
and after the last one, it goes forward through a fixed order of phases. -/

/-- The place of a phase in the order of one iteration, counted down to `Top`: first the phases that serve a request, then `Feed`,
the flush, and the capture's words. -/
def Phase.stage : Phase → Nat
  | .top => 0
  | .burstWord p _ ws => frameWords p - ws.length
  | .burstCmd _ _ => 17
  | .burstCheck => 18
  | .flush => 19
  | .feed _ => 20
  | .rstLow _ _ => 21
  | .rqr2 _ _ => 21
  | .rqr1 _ _ => 22
  | .cfgR2 _ _ _ => 21
  | .cfgR1 _ _ _ => 22
  | .cfgSettle _ _ _ _ => 23
  | .cfgW2 _ _ _ => 24
  | .cfgW1 _ _ _ => 25
  | .fault _ => 0

theorem frameWords_le (p : Precision) : frameWords p ≤ 16 := by cases p <;> decide

theorem Phase.stage_le (p : Phase) : p.stage ≤ 25 := by
  cases p with
  | burstWord p sel ws => exact (Nat.sub_le ..).trans ((frameWords_le p).trans (by decide))
  | _ => simp [Phase.stage]

/-- How far the loop is from `Top`: the FEEDs to come, and the stages within one of them. -/
def State.toTop (s : State) : Nat := 26 * s.acc.feedsLeft s.phase.rem + s.phase.stage

theorem Waits.toTop_eq {s t : State} (h : Waits s t) : t.toTop = s.toTop := by
  rw [State.toTop, State.toTop, h.phase, h.acc]

theorem toTop_lt_of_fed {s t : State} (h : t.acc.feedsLeft t.phase.rem < s.acc.feedsLeft s.phase.rem) :
    t.toTop < s.toTop := by
  have hstage := t.phase.stage_le
  unfold State.toTop
  omega

theorem toTop_lt_of_stage {s t : State} (hacc : t.acc = s.acc) (hrem : t.phase.rem = s.phase.rem)
    (hstage : t.phase.stage < s.phase.stage) : t.toTop < s.toTop := by
  rw [State.toTop, State.toTop, hacc, hrem]
  exact Nat.add_lt_add_left hstage _

/-- A message dispatched keeps the rest of the chunk for later. -/
theorem dispatched_rem {m : Message} {s : State} (h : m ≠ .rst ∨ s.clockOk = true) :
    (dispatched m s).phase.rem = s.phase.rem := by
  have msc (f : ConfigField) : (dispatchMsc f s).phase.rem = s.phase.rem := by
    unfold dispatchMsc
    split <;> rfl
  cases m with
  | cfg f =>
    cases f with
    | burstEn v => rfl
    | _ => exact msc _
  | rst =>
    rw [dispatched, startReset_of_ok (h.resolve_left (absurd rfl))]
    rfl
  | _ => rfl

/-- A transaction after which only the phase changes leads to a later stage with the same rest of the chunk. -/
theorem BusAdvance.stage_lt {s : State} {r : Word} {p : Phase} (h : BusAdvance s.now r s.phase p) (hok : PhaseOk s) :
    p.rem = s.phase.rem ∧ p.stage < s.phase.stage := by
  unfold PhaseOk at hok
  generalize s.phase = q at h hok
  cases h with
  | burstCmd p sel => exact ⟨rfl, Nat.lt_succ_of_le ((Nat.sub_le ..).trans (frameWords_le p))⟩
  | burstWord p sel ws hmore =>
    obtain ⟨-, -, hlt, -⟩ := hok
    refine ⟨rfl, ?_⟩
    rw [Phase.stage, Phase.stage, List.length_append, List.length_singleton]
    omega
  | _ => exact ⟨rfl, by simp [Phase.stage]⟩

/-- Every transaction brings the loop nearer to `Top`. -/
theorem transact_toTop_lt {s : State} {w : Word} (hw : sentWord s.phase = some w) (hok : PhaseOk s) :
    (transact w s).toTop < s.toTop := by
  rw [transact]
  rcases afterXfer_cases (s := s.popAnswer.logTxn w (s.answer w)) hw (s.answer w) with
    ⟨p, hadv, e⟩ | ⟨f, cand, rem, hp, -, e⟩ | ⟨v, rem, hp, e⟩ | ⟨p, sel, ws, hp, hlast, e⟩ <;> rw [e]
  · obtain ⟨hrem, hstage⟩ := BusAdvance.stage_lt (s := s) hadv hok
    exact toTop_lt_of_stage rfl hrem hstage
  all_goals
    change s.phase = _ at hp
  · exact toTop_lt_of_stage rfl (by rw [hp]; rfl) (by simp [hp, Phase.stage])
  · exact toTop_lt_of_stage rfl (by rw [hp]; rfl) (by simp [hp, Phase.stage])
  · refine toTop_lt_of_stage (by simp [emitBurst]) (by rw [hp]; rfl) ?_
    rw [hp, Phase.stage, ← hlast, Nat.add_sub_cancel_left]
    exact Nat.one_pos

theorem flushStep_phase (s : State) : (flushStep s).phase = .burstCheck := rfl

theorem burstCheckStep_stage (s : State) :
    (burstCheckStep s).phase.rem = [] ∧ (burstCheckStep s).phase.stage < Phase.burstCheck.stage := by
  unfold burstCheckStep
  split <;> exact ⟨rfl, by simp [Phase.stage]⟩

/-- Every enabled step brings the loop nearer to `Top`. -/
theorem LoopStep.toTop_lt {s t : State} (h : LoopStep s t) (hinv : s.Inv) (ht : t.phase.isFault = false)
    (hen : FwEnabled s) (htop : s.phase ≠ .top) : t.toTop < s.toTop := by
  have fed {rem : List Byte} {r : FeedResult} {a : Accumulator} (hp : s.phase = .feed rem) (hne : rem ≠ [])
      (hf : s.acc.feed rem = (r, a)) : a.feedsLeft r.rest < s.acc.feedsLeft s.phase.rem := by
    have hlt := Accumulator.feedsLeft_feed hinv.accWf.idxBound hne
    rw [hf] at hlt
    rwa [hp]
  cases h with
  | topFlush hp _ => exact absurd hp htop
  | topRead hp _ _ => exact absurd hp htop
  | topFail hp _ _ => exact absurd hp htop
  | feedNil hp => exact toTop_lt_of_stage rfl (by rw [hp]; rfl) (by simp [hp, Phase.stage])
  | feedConsumed rem a hp hne hf => exact toTop_lt_of_fed (fed hp hne hf)
  | feedOverFull rem rest a hp hne hf => exact toTop_lt_of_fed (fed hp hne hf)
  | feedDeserError rem rest a hp hne hf => exact toTop_lt_of_fed (fed hp hne hf)
  | feedMessage rem m rest a hp hne hf hok =>
    have hacc := (dispatched_bus ((s.setAcc a).setPhase (.feed rest)) m).1
    refine toTop_lt_of_fed ?_
    rw [hacc, dispatched_rem (s := (s.setAcc a).setPhase (.feed rest)) hok]
    exact fed hp hne hf
  | feedFault => cases ht
  | send w hw =>
    rw [xfer_of_ready (clockOk_of_running ht) ((fwEnabled_iff_of_sentWord hw).1 hen)]
    exact transact_toTop_lt (s := s.popClock) hw hinv.phaseOk
  | settle f cand t0 rem hp =>
    rw [FwEnabled, hp] at hen
    rw [settleStep_of_over (clockOk_of_running ht) hen]
    exact toTop_lt_of_stage rfl (by rw [hp]; rfl) (by simp [hp, Phase.stage])
  | reset t0 rem hp =>
    rw [FwEnabled, hp] at hen
    rw [resetStep_of_over (clockOk_of_running ht) hen]
    exact toTop_lt_of_stage rfl (by rw [hp]; rfl) (by simp [hp, Phase.stage])
  | flush hp =>
    exact toTop_lt_of_stage (flushStep_bus s).1 (by rw [hp]; rfl) (by simp [hp, flushStep_phase, Phase.stage])
  | burstCheck hp =>
    obtain ⟨hrem, hstage⟩ := burstCheckStep_stage s
    exact toTop_lt_of_stage (burstCheckStep_bus s).1 (by rw [hrem, hp]; rfl) (by rwa [hp])
  | fault kind hp => rw [hp] at ht; cases ht

/-! ## Fair runs (70_reset_and_hazards R147) -/

theorem State.Inv.withDraws {s : State} (h : s.Inv) (d : Draws) : (s.withDraws d).Inv :=
  ⟨h.accWf, h.txBound, h.lastLogged, h.pastLog, h.spaced, h.phaseOk, h.responses, h.lineHigh⟩

section
variable {env : Nat → Draws} {r : Nat → State} (h : FairRun env r)
include h

theorem FairRun.inv (n : Nat) : (r n).Inv := by
  induction n with
  | zero => exact h.startInv
  | succ n ih => exact stepKeepsInvariant _ _ (ih.withDraws (env n)) (h.isRun n)

/-- No clock query of the run fails, so the fault is never raised. -/
theorem FairRun.running (n : Nat) : (r n).phase.isFault = false := by
  induction n with
  | zero => exact h.startRunning
  | succ n ih =>
    by_cases hfw : (env n).turn = .fw
    · rcases (h.isRun.fw hfw).fault_cases ih with hrunning | ⟨⟨hc, -⟩, hquery, hrst⟩
      · exact hrunning
      · exact absurd ⟨⟨hfw, hc⟩, hquery, hrst⟩ (h.neverClockError n)
    · rwa [h.isRun.env hfw, envMove_phase]

theorem FairRun.now_mono : Monotone fun n => (r n).now := by
  refine monotone_nat_of_le_succ fun n => ?_
  by_cases hfw : (env n).turn = .fw
  · exact (h.isRun.fw hfw).now_eq.ge
  · rw [h.isRun.env hfw]
    exact envMove_now (env n).turn ((r n).withDraws (env n)).popTurn

/-- The loop waits in a move of the environment, and in a step of its own that is not enabled. -/
theorem FairRun.waits_succ {n : Nat} (hidle : ¬((env n).turn = .fw ∧ FwEnabled (r n))) : Waits (r n) (r (n + 1)) := by
  by_cases hfw : (env n).turn = .fw
  · obtain ⟨hphase, hlast, hacc⟩ := (h.isRun.fw hfw).waits (h.running (n + 1)) fun hen => hidle ⟨hfw, hen⟩
    exact ⟨hphase, hlast, hacc⟩
  · rw [h.isRun.env hfw]
    exact ⟨envMove_phase .., envMove_lastTxn .., envMove_acc ..⟩

/-- From any point on, the loop waits until its step is enabled and taken. If it waited for ever, the clock would pass the end of
its hold, and an enabled step would never be taken. -/
theorem FairRun.exists_enabled_taken (n : Nat) :
    ∃ m, n ≤ m ∧ (env m).turn = .fw ∧ FwEnabled (r m) ∧ ∀ k, n ≤ k → k ≤ m → Waits (r n) (r k) := by
  by_contra hnever
  have hwaits : ∀ m, n ≤ m → ∀ k, n ≤ k → k ≤ m → Waits (r n) (r k) := by
    intro m hm
    induction m, hm using Nat.le_induction with
    | base =>
      intro k hnk hkn
      rw [le_antisymm hkn hnk]
      exact .refl _
    | succ m hm ih =>
      intro k hnk hkm
      rcases Nat.le_succ_iff.1 hkm with hk | rfl
      · exact ih k hnk hk
      · have hidle : ¬((env m).turn = .fw ∧ FwEnabled (r m)) := fun ⟨hfw, hen⟩ => hnever ⟨m, hm, hfw, hen, ih⟩
        exact (ih m hm le_rfl).trans (h.waits_succ hidle)
  obtain ⟨t0, henabled⟩ := exists_enabled_from (h.running n)
  obtain ⟨a, ha⟩ := h.clockUnbounded t0
  have hen : ∀ m, max n a ≤ m → FwEnabled (r m) := fun m hm =>
    have hnm := (le_max_left n a).trans hm
    henabled (r m) (hwaits m hnm m hnm le_rfl) (ha.trans (h.now_mono ((le_max_right n a).trans hm)))
  obtain ⟨m, hm, hfw⟩ := h.weaklyFair (max n a) hen
  exact hnever ⟨m, (le_max_left n a).trans hm, hfw, hen m hm, hwaits m ((le_max_left n a).trans hm)⟩

/-- `Top` and every phase that may be held are left. -/
theorem FairRun.exists_left {n : Nat} (hs : mayBeHeld (r n).phase = true ∨ (r n).phase = .top) :
    ∃ m, n < m ∧ (r m).phase ≠ (r n).phase := by
  obtain ⟨m, hm, hfw, hen, hwaits⟩ := h.exists_enabled_taken n
  have hphase := (hwaits m hm le_rfl).phase
  rw [← hphase] at hs ⊢
  exact ⟨m + 1, Nat.lt_succ_of_le hm, (h.isRun.fw hfw).leaves (h.running (m + 1)) hen hs⟩

/-- The loop comes to `Top`: each enabled step that is taken brings it nearer. -/
theorem FairRun.exists_top (n : Nat) : ∃ k, n ≤ k ∧ (r k).phase = .top := by
  induction hd : (r n).toTop using Nat.strong_induction_on generalizing n with
  | _ d ih =>
    subst hd
    by_cases htop : (r n).phase = .top
    · exact ⟨n, le_rfl, htop⟩
    · obtain ⟨m, hm, hfw, hen, hwaits⟩ := h.exists_enabled_taken n
      have hwait := hwaits m hm le_rfl
      have hlt := (h.isRun.fw hfw).toTop_lt ((h.inv m).withDraws (env m)).popTurn (h.running (m + 1)) hen
        (hwait.phase ▸ htop)
      obtain ⟨k, hk, hktop⟩ := ih _ (hlt.trans_eq hwait.toTop_eq) (m + 1) rfl
      exact ⟨k, (hm.trans (Nat.le_succ m)).trans hk, hktop⟩

theorem FairRun.exists_not_top (n : Nat) : ∃ m, n ≤ m ∧ (r m).phase ≠ .top := by
  by_cases htop : (r n).phase = .top
  · obtain ⟨m, hm, hne⟩ := h.exists_left (.inr htop)
    exact ⟨m, hm.le, htop ▸ hne⟩
  · exact ⟨n, le_rfl, htop⟩

end

/-- A held transaction goes after a tick of the minimum interval (43_firmware_loop R111). -/
theorem run_held {s : State} {w : Word} {t0 : Nat} (hw : sentWord s.phase = some w) (hlast : s.lastTxn = some t0)
    (hpast : t0 ≤ s.now) (hturns : s.turns = [.tick Config.tMin, .fw]) (hclock : s.clockReplies = [true]) :
    core.run 2 s = .next (transact w (s.ticked Config.tMin).popTurn.popClock) := by
  have hs : Scheduled s [.tick Config.tMin, .fw] [true] s.answers := ⟨hturns, hclock, rfl⟩
  have hready : ReadyToSend (s.ticked Config.tMin) :=
    ⟨(hs.ticked _).clockAnswers, .inr ⟨t0, hlast, by rw [State.ticked_now]; exact Nat.add_le_add_right hpast _⟩⟩
  exact (run_tick hs 1).trans (run_step (step_of_ready hready hw) 0)

/-- Settles O47: the step of every phase is enabled and taken in the end, an enabled step leaves a phase that may be held, and the
distance to `Top` goes down from one such step to the next. -/
theorem holdsEndAndLoopReturnsToTop : Obligations.HoldsEndAndLoopReturnsToTop := by
  refine ⟨fun s w t0 hw hlast hpast hturns hclock => ?held, fun env r h n => ⟨?taken, fun hheld => ?left, ?returns⟩⟩
  case held =>
    refine ⟨_, (s.ticked Config.tMin).popTurn.popClock.answer w, run_held hw hlast hpast hturns hclock, ?_, ?_⟩
    · rw [transact_busLog]; rfl
    · rw [transact_lastTxn]; rfl
  case taken =>
    obtain ⟨m, hm, hfw, hen, hwaits⟩ := h.exists_enabled_taken n
    exact ⟨m, hm, hfw, hen, fun k hnk hkm => (hwaits k hnk hkm).phase⟩
  case left => exact h.exists_left (.inl hheld)
  case returns =>
    obtain ⟨m, hm, hleft⟩ := h.exists_not_top n
    obtain ⟨k, hk, htop⟩ := h.exists_top m
    exact ⟨m, k, hm, hk.lt_of_ne fun e => hleft (e ▸ htop), hleft, htop⟩

end Sys2Proof.Machine
end
